-- ==== Sys2Proof/Word.lean ====
section
/-!
DEFINITION. The word types of Halram and their plainest arithmetic (R2, R8).
-/
namespace Sys2Proof

/-- A scalar, address or control register value (Table 7-3). -/
abbrev Word := BitVec 64
/-- One slot of a bundle (R115). -/
abbrev Slot32 := BitVec 32
/-- One byte of memory. -/
abbrev Byte := BitVec 8
/-- One tile row: 256 bytes, byte 0 in bits[7:0] (R2, R24). -/
abbrev Row := BitVec 2048

/-- `bits[h:l]` of `v`, `n = h - l + 1` bits wide (R2). -/
abbrev field {w : Nat} (v : BitVec w) (l n : Nat) : BitVec n := v.extractLsb' l n

/-- A Boolean as one bit. -/
def bit (b : Bool) : BitVec 1 := BitVec.ofBool b

end Sys2Proof
end

