-- ==== Sys2Proof/Syntax.lean ====
section
/-!
DEFINITION. The syntax of the machine: one constructor of `Instr` for every row of `spec/opcode_table.json`.
The first 200 are the slot instructions of Tables 7-8 to 7-12, with their operand fields; the 110 after them are the
steps of the part that have no encoding (`spec/95_what_each_step_holds.md`), with the unit they happen to.
-/
namespace Sys2Proof

/-- Element types, Table 2-1 codes 0 to 8 (R23). -/
inductive ElemTy where
  | int8 | uint8 | int16 | int32 | fp16 | bf16 | fp32 | db8 | db4
  deriving DecidableEq, Repr, Inhabited

/-- The two block formats, which are the only types VMAXEXP, VQNT and VDQNT accept (Table 7-9). -/
inductive DbTy where
  | db8 | db4
  deriving DecidableEq, Repr, Inhabited

/-- Rounding modes, Table 2-3 codes 0 to 3 (R28). -/
inductive RMode where
  | rne | rtz | rdn | rup
  deriving DecidableEq, Repr, Inhabited

/-- Scopes, Table 5-1 codes 0 to 4 (R76). -/
inductive Scope where
  | core | rod | panel | chip | domain
  deriving DecidableEq, Repr, Inhabited

/-- Target of a loop delta: an address register or a row cursor (R147). -/
inductive DeltaTarget where
  | addr (r : BitVec 4)
  | cursor (r : BitVec 2)
  deriving DecidableEq, Repr, Inhabited

/-- Message kinds, Table 17-4. -/
inductive MsgKind where
  | data | quantised | gated | result
  deriving DecidableEq, Repr, Inhabited

/-- A message on a channel: its header flit and its payload bytes (R317). -/
structure Message where
  kind : MsgKind
  ty : ElemTy
  count : Nat
  gen : BitVec 8
  sender : BitVec 4
  payload : List Byte
  deriving DecidableEq, Repr, Inhabited

/-- A contribution to a reduction slot as it reaches the switch: the fields of the SENDR word (Table 17-8), the
contributing package, the element type and the elements (R329). -/
structure Contribution where
  pkg : BitVec 4
  timeout : Nat
  mask : BitVec 16
  gen : BitVec 8
  op : BitVec 2
  chan : BitVec 4
  ty : ElemTy
  elems : List (BitVec 32)
  deriving DecidableEq, Repr, Inhabited

/-- The instructions and the steps of the part. -/
inductive Instr where
  /-- ADD (R140). -/
  | add (pg : BitVec 3) (xd : BitVec 5) (xa : BitVec 5) (xb : BitVec 5)
  /-- SUB (R140). -/
  | sub (pg : BitVec 3) (xd : BitVec 5) (xa : BitVec 5) (xb : BitVec 5)
  /-- AND (R140). -/
  | and (pg : BitVec 3) (xd : BitVec 5) (xa : BitVec 5) (xb : BitVec 5)
  /-- OR (R140). -/
  | or (pg : BitVec 3) (xd : BitVec 5) (xa : BitVec 5) (xb : BitVec 5)
  /-- XOR (R140). -/
  | xor (pg : BitVec 3) (xd : BitVec 5) (xa : BitVec 5) (xb : BitVec 5)
  /-- ANDN (R140). -/
  | andn (pg : BitVec 3) (xd : BitVec 5) (xa : BitVec 5) (xb : BitVec 5)
  /-- SLL (R140). -/
  | sll (pg : BitVec 3) (xd : BitVec 5) (xa : BitVec 5) (xb : BitVec 5)
  /-- SRL (R140). -/
  | srl (pg : BitVec 3) (xd : BitVec 5) (xa : BitVec 5) (xb : BitVec 5)
  /-- SRA (R140). -/
  | sra (pg : BitVec 3) (xd : BitVec 5) (xa : BitVec 5) (xb : BitVec 5)
  /-- ROR (R140). -/
  | ror (pg : BitVec 3) (xd : BitVec 5) (xa : BitVec 5) (xb : BitVec 5)
  /-- MUL (R140). -/
  | mul (pg : BitVec 3) (xd : BitVec 5) (xa : BitVec 5) (xb : BitVec 5)
  /-- MULH (R140). -/
  | mulh (pg : BitVec 3) (xd : BitVec 5) (xa : BitVec 5) (xb : BitVec 5)
  /-- MULHU (R140). -/
  | mulhu (pg : BitVec 3) (xd : BitVec 5) (xa : BitVec 5) (xb : BitVec 5)
  /-- DIV (R141). -/
  | div (pg : BitVec 3) (xd : BitVec 5) (xa : BitVec 5) (xb : BitVec 5)
  /-- DIVU (R141). -/
  | divu (pg : BitVec 3) (xd : BitVec 5) (xa : BitVec 5) (xb : BitVec 5)
  /-- REM (R141). -/
  | rem (pg : BitVec 3) (xd : BitVec 5) (xa : BitVec 5) (xb : BitVec 5)
  /-- REMU (R141). -/
  | remu (pg : BitVec 3) (xd : BitVec 5) (xa : BitVec 5) (xb : BitVec 5)
  /-- MIN (R140). -/
  | min (pg : BitVec 3) (xd : BitVec 5) (xa : BitVec 5) (xb : BitVec 5)
  /-- MAX (R140). -/
  | max (pg : BitVec 3) (xd : BitVec 5) (xa : BitVec 5) (xb : BitVec 5)
  /-- MINU (R140). -/
  | minu (pg : BitVec 3) (xd : BitVec 5) (xa : BitVec 5) (xb : BitVec 5)
  /-- MAXU (R140). -/
  | maxu (pg : BitVec 3) (xd : BitVec 5) (xa : BitVec 5) (xb : BitVec 5)
  /-- SLT (R140). -/
  | slt (pg : BitVec 3) (xd : BitVec 5) (xa : BitVec 5) (xb : BitVec 5)
  /-- SLTU (R140). -/
  | sltu (pg : BitVec 3) (xd : BitVec 5) (xa : BitVec 5) (xb : BitVec 5)
  /-- SEQ (R140). -/
  | seq (pg : BitVec 3) (xd : BitVec 5) (xa : BitVec 5) (xb : BitVec 5)
  /-- CLZ (R140). -/
  | clz (pg : BitVec 3) (xd : BitVec 5) (xa : BitVec 5)
  /-- CTZ (R140). -/
  | ctz (pg : BitVec 3) (xd : BitVec 5) (xa : BitVec 5)
  /-- POPC (R140). -/
  | popc (pg : BitVec 3) (xd : BitVec 5) (xa : BitVec 5)
  /-- ADDI (R142). -/
  | addi (xd : BitVec 5) (xa : BitVec 5) (imm : BitVec 10)
  /-- ANDI (R142). -/
  | andi (xd : BitVec 5) (xa : BitVec 5) (imm : BitVec 10)
  /-- ORI (R142). -/
  | ori (xd : BitVec 5) (xa : BitVec 5) (imm : BitVec 10)
  /-- XORI (R142). -/
  | xori (xd : BitVec 5) (xa : BitVec 5) (imm : BitVec 10)
  /-- SLLI (R142). -/
  | slli (xd : BitVec 5) (xa : BitVec 5) (imm : BitVec 6)
  /-- SRLI (R142). -/
  | srli (xd : BitVec 5) (xa : BitVec 5) (imm : BitVec 6)
  /-- SRAI (R142). -/
  | srai (xd : BitVec 5) (xa : BitVec 5) (imm : BitVec 6)
  /-- SLTI (R142). -/
  | slti (xd : BitVec 5) (xa : BitVec 5) (imm : BitVec 10)
  /-- SLTUI (R142). -/
  | sltui (xd : BitVec 5) (xa : BitVec 5) (imm : BitVec 10)
  /-- MULI (R142). -/
  | muli (xd : BitVec 5) (xa : BitVec 5) (imm : BitVec 10)
  /-- LUI (R143). -/
  | lui (xd : BitVec 5) (imm : BitVec 18)
  /-- AUIPC (R143). -/
  | auipc (xd : BitVec 5) (imm : BitVec 18)
  /-- BEQ (R144). -/
  | beq (xa : BitVec 5) (xb : BitVec 5) (off : BitVec 11)
  /-- BNE (R144). -/
  | bne (xa : BitVec 5) (xb : BitVec 5) (off : BitVec 11)
  /-- BLT (R144). -/
  | blt (xa : BitVec 5) (xb : BitVec 5) (off : BitVec 11)
  /-- BGE (R144). -/
  | bge (xa : BitVec 5) (xb : BitVec 5) (off : BitVec 11)
  /-- BLTU (R144). -/
  | bltu (xa : BitVec 5) (xb : BitVec 5) (off : BitVec 11)
  /-- BGEU (R144). -/
  | bgeu (xa : BitVec 5) (xb : BitVec 5) (off : BitVec 11)
  /-- BP (R144). -/
  | bp (pn : BitVec 3) (off : BitVec 11)
  /-- BNP (R144). -/
  | bnp (pn : BitVec 3) (off : BitVec 11)
  /-- J (R145). -/
  | j (off : BitVec 17)
  /-- JAL (R145). -/
  | jal (x : BitVec 5) (off : BitVec 17)
  /-- JR (R145). -/
  | jr (x : BitVec 5) (off : BitVec 17)
  /-- JALR (R145). -/
  | jalr (x : BitVec 5) (off : BitVec 17)
  /-- LOOP (R148). -/
  | loop (lvl : BitVec 2) (xc : BitVec 5) (len : BitVec 8)
  /-- LDELTA (R149). -/
  | ldelta (lvl : BitVec 2) (target : DeltaTarget) (imm : BitVec 15)
  /-- LBRK (R149). -/
  | lbrk (lvl : BitVec 2)
  /-- LCLR (R149). -/
  | lclr (lvl : BitVec 2)
  /-- MOVXA (R152). -/
  | movxa (ar : BitVec 4) (xs : BitVec 5)
  /-- MOVAX (R152). -/
  | movax (xd : BitVec 5) (ar : BitVec 4)
  /-- MOVXC (R152). -/
  | movxc (cr : BitVec 2) (xs : BitVec 5)
  /-- MOVCX (R152). -/
  | movcx (xd : BitVec 5) (cr : BitVec 2)
  /-- PSET (R152). -/
  | pset (pd : BitVec 3) (xa : BitVec 5)
  /-- PAND (R152). -/
  | pand (pd : BitVec 3) (pa : BitVec 3) (pb : BitVec 3)
  /-- POR (R152). -/
  | por (pd : BitVec 3) (pa : BitVec 3) (pb : BitVec 3)
  /-- PXOR (R152). -/
  | pxor (pd : BitVec 3) (pa : BitVec 3) (pb : BitVec 3)
  /-- PNOT (R152). -/
  | pnot (pd : BitVec 3) (pa : BitVec 3)
  /-- RDCTL (R153). -/
  | rdctl (xd : BitVec 5) (n : BitVec 9)
  /-- WRCTL (R153). -/
  | wrctl (xs : BitVec 5) (n : BitVec 9)
  /-- RDCYC (R153). -/
  | rdcyc (xd : BitVec 5)
  /-- SEL (R152). -/
  | sel (xd : BitVec 5) (xa : BitVec 5) (xb : BitVec 5) (pn : BitVec 3)
  /-- NOP (R154). -/
  | nop
  /-- HALT (R155). -/
  | halt
  /-- TRAP (R156). -/
  | trap (imm : BitVec 16)
  /-- RFE (R157). -/
  | rfe
  /-- SLEEPU (R158). -/
  | sleepu (xs : BitVec 5)
  /-- FENCE (R159). -/
  | fence (scope : Scope)
  /-- OPSEL (R160). -/
  | opsel (point : BitVec 3)
  /-- KLAUNCH (R161). -/
  | klaunch (xd : BitVec 5) (ar : BitVec 4)
  /-- YIELD (R162). -/
  | yield
  /-- BRK (R156). -/
  | brk (imm : BitVec 16)
  /-- WAITW (R163). -/
  | waitw (xs : BitVec 5)
  /-- ACCRD (R164). -/
  | accrd (xd : BitVec 5) (cause : BitVec 4)
  /-- VADD (R171). -/
  | vadd (vd : BitVec 6) (va : BitVec 6) (vb : BitVec 6)
  /-- VSUB (R171). -/
  | vsub (vd : BitVec 6) (va : BitVec 6) (vb : BitVec 6)
  /-- VMUL (R171). -/
  | vmul (vd : BitVec 6) (va : BitVec 6) (vb : BitVec 6)
  /-- VFMA (R171). -/
  | vfma (vd : BitVec 6) (va : BitVec 6) (vb : BitVec 6)
  /-- VMIN (R171). -/
  | vmin (vd : BitVec 6) (va : BitVec 6) (vb : BitVec 6)
  /-- VMAX (R171). -/
  | vmax (vd : BitVec 6) (va : BitVec 6) (vb : BitVec 6)
  /-- VAND (R171). -/
  | vand (vd : BitVec 6) (va : BitVec 6) (vb : BitVec 6)
  /-- VOR (R171). -/
  | vor (vd : BitVec 6) (va : BitVec 6) (vb : BitVec 6)
  /-- VXOR (R171). -/
  | vxor (vd : BitVec 6) (va : BitVec 6) (vb : BitVec 6)
  /-- VSHL (R171). -/
  | vshl (vd : BitVec 6) (va : BitVec 6) (vb : BitVec 6)
  /-- VSHR (R171). -/
  | vshr (vd : BitVec 6) (va : BitVec 6) (vb : BitVec 6)
  /-- VSEL (R171). -/
  | vsel (vd : BitVec 6) (va : BitVec 6) (vb : BitVec 6)
  /-- VCMPEQ (R171). -/
  | vcmpeq (vd : BitVec 6) (va : BitVec 6) (vb : BitVec 6)
  /-- VCMPLT (R171). -/
  | vcmplt (vd : BitVec 6) (va : BitVec 6) (vb : BitVec 6)
  /-- VCMPLE (R171). -/
  | vcmple (vd : BitVec 6) (va : BitVec 6) (vb : BitVec 6)
  /-- VABSD (R171). -/
  | vabsd (vd : BitVec 6) (va : BitVec 6) (vb : BitVec 6)
  /-- VADDS (R173). -/
  | vadds (vd : BitVec 6) (va : BitVec 6) (xb : BitVec 5)
  /-- VMULS (R173). -/
  | vmuls (vd : BitVec 6) (va : BitVec 6) (xb : BitVec 5)
  /-- VFMAS (R173). -/
  | vfmas (vd : BitVec 6) (va : BitVec 6) (xb : BitVec 5)
  /-- VMINS (R173). -/
  | vmins (vd : BitVec 6) (va : BitVec 6) (xb : BitVec 5)
  /-- VMAXS (R173). -/
  | vmaxs (vd : BitVec 6) (va : BitVec 6) (xb : BitVec 5)
  /-- VSPLAT (R173). -/
  | vsplat (vd : BitVec 6) (xb : BitVec 5)
  /-- VCVT (R175). -/
  | vcvt (vd : BitVec 6) (va : BitVec 6) (ty : ElemTy) (rnd : RMode)
  /-- VMAXEXP (R177). -/
  | vmaxexp (va : BitVec 6) (ty : DbTy)
  /-- VQNT (R178). -/
  | vqnt (vd : BitVec 6) (va : BitVec 6) (ty : DbTy)
  /-- VDQNT (R179). -/
  | vdqnt (vd : BitVec 6) (va : BitVec 6) (ty : DbTy)
  /-- VRND (R176). -/
  | vrnd (vd : BitVec 6) (va : BitVec 6) (rnd : RMode)
  /-- VRSUM (R180). -/
  | vrsum (vd : BitVec 6) (va : BitVec 6)
  /-- VRMAX (R181). -/
  | vrmax (vd : BitVec 6) (va : BitVec 6)
  /-- VRMIN (R181). -/
  | vrmin (vd : BitVec 6) (va : BitVec 6)
  /-- VRAMAX (R181). -/
  | vramax (vd : BitVec 6) (va : BitVec 6)
  /-- VPERM (R182). -/
  | vperm (vd : BitVec 6) (va : BitVec 6) (vb : BitVec 6)
  /-- VEXT (R183). -/
  | vext (xd : BitVec 5) (va : BitVec 6) (xb : BitVec 5)
  /-- VINS (R183). -/
  | vins (vd : BitVec 6) (xs : BitVec 5) (xb : BitVec 5)
  /-- VIOTA (R183). -/
  | viota (vd : BitVec 6)
  /-- VCOMPR (R182). -/
  | vcompr (vd : BitVec 6) (va : BitVec 6) (vb : BitVec 6)
  /-- TCFG (R167). -/
  | tcfg (t : BitVec 4) (ty : ElemTy) (rows : BitVec 6) (keep : BitVec 1) (tent : BitVec 1)
  /-- TZERO (R168). -/
  | tzero (t : BitVec 4)
  /-- TMOV (R168). -/
  | tmov (td : BitVec 4) (ts : BitVec 4)
  /-- TTAG (R169). -/
  | ttag (t : BitVec 4) (cr : BitVec 2) (xd : BitVec 5)
  /-- VLD (R184). -/
  | vld (v : BitVec 6) (ar : BitVec 4) (imm : BitVec 10)
  /-- VST (R184). -/
  | vst (v : BitVec 6) (ar : BitVec 4) (imm : BitVec 10)
  /-- VLDE (R184). -/
  | vlde (ar : BitVec 4) (imm : BitVec 10)
  /-- VSTE (R184). -/
  | vste (ar : BitVec 4) (imm : BitVec 10)
  /-- FRCP (R188). -/
  | frcp (vd : BitVec 6) (va : BitVec 6)
  /-- FRSQ (R187). -/
  | frsq (vd : BitVec 6) (va : BitVec 6)
  /-- FSQRT (R187). -/
  | fsqrt (vd : BitVec 6) (va : BitVec 6)
  /-- FEXP2 (R187). -/
  | fexp2 (vd : BitVec 6) (va : BitVec 6)
  /-- FLOG2 (R187). -/
  | flog2 (vd : BitVec 6) (va : BitVec 6)
  /-- FEXPT (R189). -/
  | fexpt (vd : BitVec 6) (va : BitVec 6)
  /-- FTANH (R187). -/
  | ftanh (vd : BitVec 6) (va : BitVec 6)
  /-- FSIGM (R187). -/
  | fsigm (vd : BitVec 6) (va : BitVec 6)
  /-- GTOPK (R344). -/
  | gtopk (vd : BitVec 6) (va : BitVec 6) (km1 : BitVec 3)
  /-- GSMAX (R345). -/
  | gsmax (vd : BitVec 6) (va : BitVec 6) (km1 : BitVec 3)
  /-- GHIST (R346). -/
  | ghist (vd : BitVec 6) (va : BitVec 6)
  /-- MMA (R199). -/
  | mma (tacc : BitVec 4) (ta : BitVec 4) (db : BitVec 6) (kout : BitVec 4) (kin : BitVec 4)
  /-- MMAZ (R199). -/
  | mmaz (tacc : BitVec 4) (ta : BitVec 4) (db : BitVec 6) (kout : BitVec 4) (kin : BitVec 4)
  /-- MMAT (R199). -/
  | mmat (tacc : BitVec 4) (ta : BitVec 4) (db : BitVec 6) (kout : BitVec 4) (kin : BitVec 4)
  /-- MMAG (R201). -/
  | mmag (tacc : BitVec 4) (vidx : BitVec 6) (db : BitVec 6) (kout : BitVec 4) (kin : BitVec 4)
  /-- MGSET (R195). -/
  | mgset (dg : BitVec 6) (xs : BitVec 5) (kout : BitVec 4) (kin : BitVec 4)
  /-- MDRAIN (R202). -/
  | mdrain (kout : BitVec 4) (kin : BitVec 4)
  /-- RESOLVE (R363). -/
  | resolve (tdst : BitVec 4) (ttent : BitVec 4) (vroute : BitVec 6) (xd : BitVec 5)
  /-- TCOMMIT (R365). -/
  | tcommit (tdst : BitVec 4) (ttent : BitVec 4)
  /-- TSQUASH (R366). -/
  | tsquash (ttent : BitVec 4)
  /-- RLIST (R364). -/
  | rlist (xd : BitVec 5)
  /-- LDBU (R250). -/
  | ldbu (cls : BitVec 3) (xd : BitVec 5) (ar : BitVec 4) (imm : BitVec 9)
  /-- LDB (R250). -/
  | ldb (cls : BitVec 3) (xd : BitVec 5) (ar : BitVec 4) (imm : BitVec 9)
  /-- LDHU (R250). -/
  | ldhu (cls : BitVec 3) (xd : BitVec 5) (ar : BitVec 4) (imm : BitVec 9)
  /-- LDH (R250). -/
  | ldh (cls : BitVec 3) (xd : BitVec 5) (ar : BitVec 4) (imm : BitVec 9)
  /-- LDWU (R250). -/
  | ldwu (cls : BitVec 3) (xd : BitVec 5) (ar : BitVec 4) (imm : BitVec 9)
  /-- LDW (R250). -/
  | ldw (cls : BitVec 3) (xd : BitVec 5) (ar : BitVec 4) (imm : BitVec 9)
  /-- LDD (R250). -/
  | ldd (cls : BitVec 3) (xd : BitVec 5) (ar : BitVec 4) (imm : BitVec 9)
  /-- STB (R250). -/
  | stb (cls : BitVec 3) (xs : BitVec 5) (ar : BitVec 4) (imm : BitVec 9)
  /-- STH (R250). -/
  | sth (cls : BitVec 3) (xs : BitVec 5) (ar : BitVec 4) (imm : BitVec 9)
  /-- STW (R250). -/
  | stw (cls : BitVec 3) (xs : BitVec 5) (ar : BitVec 4) (imm : BitVec 9)
  /-- STD (R250). -/
  | std (cls : BitVec 3) (xs : BitVec 5) (ar : BitVec 4) (imm : BitVec 9)
  /-- AADD (R300). -/
  | aadd (scope : Scope) (xd : BitVec 5) (ar : BitVec 4) (xs : BitVec 5) (dbl : BitVec 1) (ord : BitVec 2)
  /-- AMAX (R300). -/
  | amax (scope : Scope) (xd : BitVec 5) (ar : BitVec 4) (xs : BitVec 5) (dbl : BitVec 1) (ord : BitVec 2)
  /-- AMIN (R300). -/
  | amin (scope : Scope) (xd : BitVec 5) (ar : BitVec 4) (xs : BitVec 5) (dbl : BitVec 1) (ord : BitVec 2)
  /-- AMAXU (R300). -/
  | amaxu (scope : Scope) (xd : BitVec 5) (ar : BitVec 4) (xs : BitVec 5) (dbl : BitVec 1) (ord : BitVec 2)
  /-- AXCHG (R300). -/
  | axchg (scope : Scope) (xd : BitVec 5) (ar : BitVec 4) (xs : BitVec 5) (dbl : BitVec 1) (ord : BitVec 2)
  /-- ACAS (R300). -/
  | acas (scope : Scope) (xd : BitVec 5) (ar : BitVec 4) (xs : BitVec 5) (dbl : BitVec 1) (ord : BitVec 2)
  /-- AAND (R300). -/
  | aand (scope : Scope) (xd : BitVec 5) (ar : BitVec 4) (xs : BitVec 5) (dbl : BitVec 1) (ord : BitVec 2)
  /-- AOR (R300). -/
  | aor (scope : Scope) (xd : BitVec 5) (ar : BitVec 4) (xs : BitVec 5) (dbl : BitVec 1) (ord : BitVec 2)
  /-- CPY (R252). -/
  | cpy (dsrc : BitVec 6) (ddst : BitVec 6) (kout : BitVec 4) (kin : BitVec 4)
  /-- CPYCV (R252). -/
  | cpycv (dsrc : BitVec 6) (ddst : BitVec 6) (kout : BitVec 4) (kin : BitVec 4)
  /-- CPYZ (R252). -/
  | cpyz (dsrc : BitVec 6) (ddst : BitVec 6) (kout : BitVec 4) (kin : BitVec 4)
  /-- CPYL2 (R251). -/
  | cpyl2 (dsrc : BitVec 6) (ddst : BitVec 6) (kout : BitVec 4) (kin : BitVec 4)
  /-- CPYPF (R251). -/
  | cpypf (dsrc : BitVec 6) (kout : BitVec 4) (kin : BitVec 4)
  /-- CPYWB (R251). -/
  | cpywb (dsrc : BitVec 6) (kout : BitVec 4) (kin : BitVec 4)
  /-- TKWAIT (R296). -/
  | tkwait (k : BitVec 4)
  /-- TKTEST (R297). -/
  | tktest (k : BitVec 4) (xd : BitVec 5)
  /-- TKJOIN (R298). -/
  | tkjoin (kd : BitVec 4) (ka : BitVec 4) (kb : BitVec 4) (kc : BitVec 4)
  /-- TKPROM (R297). -/
  | tkprom (k : BitVec 4) (xd : BitVec 5)
  /-- TKSET (R299). -/
  | tkset (kd : BitVec 4) (refused : BitVec 1)
  /-- PROBE (R269). -/
  | probe (dl : BitVec 6) (kout : BitVec 4) (kin : BitVec 4)
  /-- PROBEW (R269). -/
  | probew (dl : BitVec 6) (kout : BitVec 4) (kin : BitVec 4)
  /-- BAR (R301). -/
  | bar (scope : Scope) (xs : BitVec 5) (kout : BitVec 4) (kin : BitVec 4)
  /-- BARBA (R303). -/
  | barba (n : BitVec 4) (xs : BitVec 5)
  /-- BARBW (R304). -/
  | barbw (n : BitVec 4) (kout : BitVec 4) (kin : BitVec 4)
  /-- RTICK (R306). -/
  | rtick (ring : BitVec 8) (xd : BitVec 5)
  /-- RFILL (R307). -/
  | rfill (ring : BitVec 8) (xs : BitVec 5) (ar : BitVec 4)
  /-- RTAKE (R306). -/
  | rtake (ring : BitVec 8) (xd : BitVec 5)
  /-- RWAIT (R306). -/
  | rwait (ring : BitVec 8) (kout : BitVec 4) (kin : BitVec 4)
  /-- PQPUSH (R309). -/
  | pqpush (xk : BitVec 5) (xv : BitVec 5)
  /-- PQPOP (R310). -/
  | pqpop (xd : BitVec 5)
  /-- SEND (R320). -/
  | send (dl : BitVec 6) (xs : BitVec 5) (kout : BitVec 4) (kin : BitVec 4)
  /-- SEND_Q (R320). -/
  | sendQ (dl : BitVec 6) (xs : BitVec 5) (kout : BitVec 4) (kin : BitVec 4)
  /-- SENDR (R330). -/
  | sendr (dl : BitVec 6) (xs : BitVec 5) (kout : BitVec 4) (kin : BitVec 4)
  /-- RECV (R323). -/
  | recv (dl : BitVec 6) (xs : BitVec 5) (kout : BitVec 4) (kin : BitVec 4)
  /-- RECVQ (R324). -/
  | recvq (xd : BitVec 5) (xs : BitVec 5)
  /-- GRETIRE (R327). -/
  | gretire (xs : BitVec 5)
  /-- SEND_G (R340). -/
  | sendG (dl : BitVec 6) (xs : BitVec 5) (kout : BitVec 4) (kin : BitVec 4)
  /-- PLOOK (R354). -/
  | plook (xd : BitVec 5) (xa : BitVec 5)
  /-- PTRAIN (R355). -/
  | ptrain (xa : BitVec 5) (xb : BitVec 5)
  /-- PCLR (R356). -/
  | pclr
  /-- PCFG (R356). -/
  | pcfg (xa : BitVec 5)
  /-- SJOIN (R311). -/
  | sjoin (xd : BitVec 5)
  /-- SPUB (R312). -/
  | spub (dl : BitVec 6) (kout : BitVec 4) (kin : BitVec 4)
  /-- SCONS (R312). -/
  | scons (dl : BitVec 6) (kout : BitVec 4) (kin : BitVec 4)
  /-- PACKAGE_RESET (R4, R21, R314). -/
  | packageReset
  /-- HOST_LINK_TRAINING (R19): with the greatest width and the highest speed, by its generation, that the other end supports. -/
  | hostLinkTraining (link : Nat) (width : Nat) (speed : Nat)
  /-- DOORBELL (R62). -/
  | doorbell (q : Nat) (v : BitVec 64)
  /-- LQCFG_WRITE (R62). -/
  | lqcfgWrite (q : Nat) (v : BitVec 64)
  /-- BAR0_REGISTER_WRITE (R61). -/
  | bar0RegisterWrite (off : Nat) (v : BitVec 64)
  /-- NOP_COMMAND (R63). -/
  | nopCommand (q : Nat)
  /-- CTX_CREATE (R66). -/
  | ctxCreate (q : Nat)
  /-- CTX_DESTROY (R67). -/
  | ctxDestroy (q : Nat)
  /-- IMG_LOAD (R47). -/
  | imgLoad (q : Nat)
  /-- IMG_UNLOAD (R48). -/
  | imgUnload (q : Nat)
  /-- LAUNCH (R68). -/
  | launch (q : Nat)
  /-- PIPE_BIND (R84). -/
  | pipeBind (q : Nat)
  /-- ATTEST (R49). -/
  | attest (q : Nat)
  /-- PRIORITY_AGING (R71). -/
  | priorityAging (k : Nat)
  /-- KERNEL_PLACEMENT (R79). -/
  | kernelPlacement
  /-- QUANTUM_EXPIRY (R73). -/
  | quantumExpiry (k : Nat)
  /-- PREEMPTION_POINT (R379). -/
  | preemptionPoint (core : Nat)
  /-- SAVE_COMPLETE (R379). -/
  | saveComplete (core : Nat)
  /-- PLACEMENT_END (R208). -/
  | placementEnd (rod : Nat)
  /-- RESTORE_COMPLETE (R382). -/
  | restoreComplete (core : Nat)
  /-- KERNEL_RETIRE (R403). -/
  | kernelRetire (k : Nat)
  /-- FINAL_ACCOUNTS (R404). -/
  | finalAccounts (asid : Nat)
  /-- ABACUS_FLUSH (R220). -/
  | abacusFlush (core : Nat)
  /-- ACS_ENABLE (R224). -/
  | acsEnable (core : Nat)
  /-- ACS_DISABLE (R225). -/
  | acsDisable (core : Nat)
  /-- CHARGE_RUN_CLOSE (R225). -/
  | chargeRunClose (core : Nat)
  /-- WINDOW_END (R215). -/
  | windowEnd (rod : Nat)
  /-- FILLER_BUNDLE (R214). -/
  | fillerBundle (core : Nat)
  /-- STALL_BUNDLE (R216). -/
  | stallBundle (core : Nat)
  /-- OP_CHANGE_BEGIN (R227). -/
  | opChangeBegin (rod : Nat)
  /-- RAMP_END (R227). -/
  | rampEnd (rod : Nat)
  /-- RELOCK_END (R227). -/
  | relockEnd (rod : Nat)
  /-- PERMIT_SPENT (R231). -/
  | permitSpent (panel : Nat)
  /-- PERMIT_EARNED (R231). -/
  | permitEarned (panel : Nat)
  /-- BOOST_FALL_SECOND_STEP (R232). -/
  | boostFallSecondStep (panel : Nat)
  /-- POOL_CLAIM (R233). -/
  | poolClaim (panel : Nat)
  /-- POOL_GRANT (R233). -/
  | poolGrant (die : Nat)
  /-- POOL_WITHDRAW (R233). -/
  | poolWithdraw (panel : Nat)
  /-- POWER_SAMPLE (R235). -/
  | powerSample (watts : Nat)
  /-- THERMAL_READING (R236). -/
  | thermalReading (panel : Nat) (steps : Nat)
  /-- THERMAL_DWELL_END (R236). -/
  | thermalDwellEnd (panel : Nat)
  /-- CLOCK_GATE (R239). -/
  | clockGate (rod : Nat)
  /-- RAIL_GATE (R239). -/
  | railGate (rod : Nat)
  /-- QUIESCE_END (R239). -/
  | quiesceEnd (rod : Nat)
  /-- SAVE_STATE_END (R239). -/
  | saveStateEnd (rod : Nat)
  /-- HOLD_END (R239). -/
  | holdEnd (rod : Nat)
  /-- RAIL_DOWN_END (R239). -/
  | railDownEnd (rod : Nat)
  /-- WAKE (R240). -/
  | wake (core : Nat)
  /-- INRUSH_ADMIT (R240). -/
  | inrushAdmit (die : Nat)
  /-- INRUSH_RAMP_END (R240). -/
  | inrushRampEnd (rod : Nat)
  /-- WAKE_RESTORE_END (R240). -/
  | wakeRestoreEnd (rod : Nat)
  /-- FETCH_FILL (R207). -/
  | fetchFill (core : Nat)
  /-- LOAD_RETURN (R250). -/
  | loadReturn (core : Nat) (op : Nat)
  /-- STORE_PERFORM (R243). -/
  | storePerform (core : Nat) (op : Nat)
  /-- COPY_ACCEPT (R253). -/
  | copyAccept (core : Nat) (op : Nat)
  /-- COPY_COMPLETE (R253), of a core or, from 256 on, a saved core. -/
  | copyComplete (core : Nat) (op : Nat)
  /-- PROMISE_MISSED (R256). -/
  | promiseMissed (core : Nat) (op : Nat)
  /-- STAGING_RESIZE (R245). -/
  | stagingResize (rod : Nat) (ways : Nat)
  /-- STAGING_RESIZE_COMPLETE (R245). -/
  | stagingResizeComplete (rod : Nat)
  /-- SYNC (R267). -/
  | sync (page : Nat)
  /-- CLEAR (R267). -/
  | clear (page : Nat)
  /-- SYNC_COMPLETE (R267). -/
  | syncComplete
  /-- PROBE_ACCEPT (R269). -/
  | probeAccept (core : Nat)
  /-- PROBE_FAULT (R271). -/
  | probeFault (core : Nat)
  /-- PROBE_COMPLETE (R269). -/
  | probeComplete (core : Nat)
  /-- MATRIX_OP_START (R191). -/
  | matrixOpStart (core : Nat)
  /-- MATRIX_OP_COMPLETE (R191). -/
  | matrixOpComplete (core : Nat)
  /-- SPEC_COMPLETE (R359). -/
  | specComplete (core : Nat)
  /-- BARRIER_ARRIVAL (R302). -/
  | barrierArrival (core : Nat) (op : Nat)
  /-- TICKET_GRANT (R306). -/
  | ticketGrant (core : Nat)
  /-- SLEEP_END (R158). -/
  | sleepEnd (core : Nat)
  /-- WAITW_END (R163). -/
  | waitwEnd (core : Nat)
  /-- KLAUNCH_ACCEPT (R161). -/
  | klaunchAccept (core : Nat)
  /-- STAGE_ELEMENT_LANDED (R312). -/
  | stageElementLanded (core : Nat) (op : Nat)
  /-- ELEMENT_PUBLISHED (R86). -/
  | elementPublished (entry : Nat)
  /-- CHANNEL_BIND (R316). -/
  | channelBind (peer : Nat) (chan : Nat) (v : BitVec 64)
  /-- CHANNEL_UNBIND (R316). -/
  | channelUnbind (peer : Nat) (chan : Nat)
  /-- CREDIT_GRANT (R321). -/
  | creditGrant (peer : Nat) (chan : Nat)
  /-- SEND_ACCEPT (R322). -/
  | sendAccept (core : Nat) (op : Nat)
  /-- MESSAGE_ARRIVAL (R318). -/
  | messageArrival (peer : Nat) (chan : Nat) (m : Message)
  /-- MARKER_ARRIVAL (R326). -/
  | markerArrival (peer : Nat) (chan : Nat) (gen : BitVec 8)
  /-- RECV_POSTED (R323). -/
  | recvPosted (core : Nat) (op : Nat)
  /-- RECV_ACCEPT (R323). -/
  | recvAccept (core : Nat) (op : Nat)
  /-- RECV_COMPLETE (R323), of a core or, from 256 on, a saved core. -/
  | recvComplete (core : Nat) (op : Nat)
  /-- CONTRIBUTION_ARRIVAL (R330). -/
  | contributionArrival (slot : Nat) (c : Contribution)
  /-- REDUCTION_TIMEOUT (R332). -/
  | reductionTimeout (slot : Nat)
  /-- SENDR_ANSWER (R330). -/
  | sendrAnswer (core : Nat) (op : Nat)
  /-- REMOTE_ERROR_REPORT (R397). -/
  | remoteErrorReport (asid : Nat) (line : Nat)
  /-- GATECFG_WRITE (R338). -/
  | gatecfgWrite (die : Nat) (v : BitVec 64)
  /-- GATE_LOAD (R339). -/
  | gateLoad (die : Nat) (v : BitVec 64)
  /-- GATE_LOAD_COMPLETE (R339). -/
  | gateLoadComplete (die : Nat)
  /-- TRAP_ENTRY (R373). -/
  | trapEntry (core : Nat)
  /-- WATCHDOG (R383). -/
  | watchdog (core : Nat)
  /-- TEND_WRITE (R377). -/
  | tendWrite (core : Nat) (v : BitVec 64)
  /-- PET (R383). -/
  | pet (core : Nat)
  /-- DEBUG_HALT (R384). -/
  | debugHalt (core : Nat)
  /-- DEBUG_STEP (R384). -/
  | debugStep (core : Nat)
  /-- DEBUG_RESUME (R384). -/
  | debugResume (core : Nat)
  /-- DEBUG_SNAP (R384). -/
  | debugSnap (core : Nat)
  /-- DEBUG_LOAD (R384). -/
  | debugLoad (core : Nat)
  /-- PATROL_SCRUB (R389). -/
  | patrolScrub (line : Nat)
  /-- PAGE_RETIREMENT (R394). -/
  | pageRetirement (frame : Nat)
  /-- WAY_QUARANTINE (R395). -/
  | wayQuarantine (slice : Nat) (way : Nat)
  /-- ERRINJ_WRITE (R399). -/
  | errinjWrite (v : BitVec 64)
  /-- SEND_COMPLETE (R322), of a core or, from 256 on, a saved core. -/
  | sendComplete (core : Nat) (op : Nat)
  /-- ATOMIC_RETURN (R300). -/
  | atomicReturn (core : Nat) (op : Nat)
  /-- RESERVED_COMMAND (R63). -/
  | reservedCommand (q : Nat)
  /-- FABRIC_RESET (R330). -/
  | fabricReset
  /-- ENGINE_UNMAPPED_PAGE (R259), of a core or, from 256 on, a saved core. -/
  | engineUnmappedPage (core : Nat) (op : Nat)
  /-- ENGINE_ERROR_DETECTION (R389), of a core or, from 256 on, a saved core. -/
  | engineErrorDetection (core : Nat) (op : Nat) (line : Nat)
  deriving DecidableEq, Repr

end Sys2Proof
end

