-- ==== Sys2Proof/WellFormed.lean ====
section
/-!
DEFINITION. Well-formed instructions: the restrictions on operand fields that the type of a constructor does not carry.
`Instr.defect` names the first one an instruction breaks; `Instr.WellFormed` says there is none.
-/
namespace Sys2Proof

/-- Why a word is not a legal slot. Every one of them is reason 0 of Table 7-6. -/
inductive DecodeErr where
  /-- MAJ 0x1D to 0x1F (Table 7-7). -/
  | reservedMajor
  /-- A function code that its table does not list (R132). -/
  | reservedFunction
  /-- A reserved value in a type, scope, target or size field (R132). -/
  | reservedField
  /-- A nonzero bit in a field the layout marks zero (R132). -/
  | nonzeroField
  /-- An engine instruction whose kout is k0, or TKJOIN or TKSET of k0 (R138, R295). -/
  | koutZero
  /-- TCFG.tent with a type other than FP32 or INT32 (R167). -/
  | tentType
  /-- A step that names a unit the part does not have (R12). -/
  | noSuchUnit
  deriving DecidableEq, Repr

/-- An engine's kout must not be k0 (R138). -/
def koutDefect (k : BitVec 4) : Option DecodeErr := if k = 0#4 then some .koutZero else none

/-- TCFG with the tentative bit takes FP32 or INT32 only. -/
def tentDefect (ty : ElemTy) (tent : BitVec 1) : Option DecodeErr :=
  if tent = 1#1 ∧ ty ≠ .fp32 ∧ ty ≠ .int32 then some .tentType else none

/-- A unit number below its count (R12). -/
def unitDefect (n bound : Nat) : Option DecodeErr := if n < bound then none else some .noSuchUnit

/-- The first restriction an instruction breaks. -/
def Instr.defect (i : Instr) : Option DecodeErr :=
  match i with
  | .add _ _ _ _ => none
  | .sub _ _ _ _ => none
  | .and _ _ _ _ => none
  | .or _ _ _ _ => none
  | .xor _ _ _ _ => none
  | .andn _ _ _ _ => none
  | .sll _ _ _ _ => none
  | .srl _ _ _ _ => none
  | .sra _ _ _ _ => none
  | .ror _ _ _ _ => none
  | .mul _ _ _ _ => none
  | .mulh _ _ _ _ => none
  | .mulhu _ _ _ _ => none
  | .div _ _ _ _ => none
  | .divu _ _ _ _ => none
  | .rem _ _ _ _ => none
  | .remu _ _ _ _ => none
  | .min _ _ _ _ => none
  | .max _ _ _ _ => none
  | .minu _ _ _ _ => none
  | .maxu _ _ _ _ => none
  | .slt _ _ _ _ => none
  | .sltu _ _ _ _ => none
  | .seq _ _ _ _ => none
  | .clz _ _ _ => none
  | .ctz _ _ _ => none
  | .popc _ _ _ => none
  | .addi _ _ _ => none
  | .andi _ _ _ => none
  | .ori _ _ _ => none
  | .xori _ _ _ => none
  | .slli _ _ _ => none
  | .srli _ _ _ => none
  | .srai _ _ _ => none
  | .slti _ _ _ => none
  | .sltui _ _ _ => none
  | .muli _ _ _ => none
  | .lui _ _ => none
  | .auipc _ _ => none
  | .beq _ _ _ => none
  | .bne _ _ _ => none
  | .blt _ _ _ => none
  | .bge _ _ _ => none
  | .bltu _ _ _ => none
  | .bgeu _ _ _ => none
  | .bp _ _ => none
  | .bnp _ _ => none
  | .j _ => none
  | .jal _ _ => none
  | .jr _ _ => none
  | .jalr _ _ => none
  | .loop _ _ _ => none
  | .ldelta _ _ _ => none
  | .lbrk _ => none
  | .lclr _ => none
  | .movxa _ _ => none
  | .movax _ _ => none
  | .movxc _ _ => none
  | .movcx _ _ => none
  | .pset _ _ => none
  | .pand _ _ _ => none
  | .por _ _ _ => none
  | .pxor _ _ _ => none
  | .pnot _ _ => none
  | .rdctl _ _ => none
  | .wrctl _ _ => none
  | .rdcyc _ => none
  | .sel _ _ _ _ => none
  | .nop => none
  | .halt => none
  | .trap _ => none
  | .rfe => none
  | .sleepu _ => none
  | .fence _ => none
  | .opsel _ => none
  | .klaunch _ _ => none
  | .yield => none
  | .brk _ => none
  | .waitw _ => none
  | .accrd _ _ => none
  | .vadd _ _ _ => none
  | .vsub _ _ _ => none
  | .vmul _ _ _ => none
  | .vfma _ _ _ => none
  | .vmin _ _ _ => none
  | .vmax _ _ _ => none
  | .vand _ _ _ => none
  | .vor _ _ _ => none
  | .vxor _ _ _ => none
  | .vshl _ _ _ => none
  | .vshr _ _ _ => none
  | .vsel _ _ _ => none
  | .vcmpeq _ _ _ => none
  | .vcmplt _ _ _ => none
  | .vcmple _ _ _ => none
  | .vabsd _ _ _ => none
  | .vadds _ _ _ => none
  | .vmuls _ _ _ => none
  | .vfmas _ _ _ => none
  | .vmins _ _ _ => none
  | .vmaxs _ _ _ => none
  | .vsplat _ _ => none
  | .vcvt _ _ _ _ => none
  | .vmaxexp _ _ => none
  | .vqnt _ _ _ => none
  | .vdqnt _ _ _ => none
  | .vrnd _ _ _ => none
  | .vrsum _ _ => none
  | .vrmax _ _ => none
  | .vrmin _ _ => none
  | .vramax _ _ => none
  | .vperm _ _ _ => none
  | .vext _ _ _ => none
  | .vins _ _ _ => none
  | .viota _ => none
  | .vcompr _ _ _ => none
  | .tcfg _ ty _ _ tent => tentDefect ty tent
  | .tzero _ => none
  | .tmov _ _ => none
  | .ttag _ _ _ => none
  | .vld _ _ _ => none
  | .vst _ _ _ => none
  | .vlde _ _ => none
  | .vste _ _ => none
  | .frcp _ _ => none
  | .frsq _ _ => none
  | .fsqrt _ _ => none
  | .fexp2 _ _ => none
  | .flog2 _ _ => none
  | .fexpt _ _ => none
  | .ftanh _ _ => none
  | .fsigm _ _ => none
  | .gtopk _ _ _ => none
  | .gsmax _ _ _ => none
  | .ghist _ _ => none
  | .mma _ _ _ kout _ => koutDefect kout
  | .mmaz _ _ _ kout _ => koutDefect kout
  | .mmat _ _ _ kout _ => koutDefect kout
  | .mmag _ _ _ kout _ => koutDefect kout
  | .mgset _ _ kout _ => koutDefect kout
  | .mdrain kout _ => koutDefect kout
  | .resolve _ _ _ _ => none
  | .tcommit _ _ => none
  | .tsquash _ => none
  | .rlist _ => none
  | .ldbu _ _ _ _ => none
  | .ldb _ _ _ _ => none
  | .ldhu _ _ _ _ => none
  | .ldh _ _ _ _ => none
  | .ldwu _ _ _ _ => none
  | .ldw _ _ _ _ => none
  | .ldd _ _ _ _ => none
  | .stb _ _ _ _ => none
  | .sth _ _ _ _ => none
  | .stw _ _ _ _ => none
  | .std _ _ _ _ => none
  | .aadd _ _ _ _ _ _ => none
  | .amax _ _ _ _ _ _ => none
  | .amin _ _ _ _ _ _ => none
  | .amaxu _ _ _ _ _ _ => none
  | .axchg _ _ _ _ _ _ => none
  | .acas _ _ _ _ _ _ => none
  | .aand _ _ _ _ _ _ => none
  | .aor _ _ _ _ _ _ => none
  | .cpy _ _ kout _ => koutDefect kout
  | .cpycv _ _ kout _ => koutDefect kout
  | .cpyz _ _ kout _ => koutDefect kout
  | .cpyl2 _ _ kout _ => koutDefect kout
  | .cpypf _ kout _ => koutDefect kout
  | .cpywb _ kout _ => koutDefect kout
  | .tkwait _ => none
  | .tktest _ _ => none
  | .tkjoin kd _ _ _ => koutDefect kd
  | .tkprom _ _ => none
  | .tkset kd _ => koutDefect kd
  | .probe _ kout _ => koutDefect kout
  | .probew _ kout _ => koutDefect kout
  | .bar _ _ kout _ => koutDefect kout
  | .barba _ _ => none
  | .barbw _ kout _ => koutDefect kout
  | .rtick _ _ => none
  | .rfill _ _ _ => none
  | .rtake _ _ => none
  | .rwait _ kout _ => koutDefect kout
  | .pqpush _ _ => none
  | .pqpop _ => none
  | .send _ _ kout _ => koutDefect kout
  | .sendQ _ _ kout _ => koutDefect kout
  | .sendr _ _ kout _ => koutDefect kout
  | .recv _ _ kout _ => koutDefect kout
  | .recvq _ _ => none
  | .gretire _ => none
  | .sendG _ _ kout _ => koutDefect kout
  | .plook _ _ => none
  | .ptrain _ _ => none
  | .pclr => none
  | .pcfg _ => none
  | .sjoin _ => none
  | .spub _ kout _ => koutDefect kout
  | .scons _ kout _ => koutDefect kout
  | .packageReset => none
  | .hostLinkTraining link _ _ => unitDefect link 2
  | .doorbell q _ => unitDefect q 64
  | .lqcfgWrite q _ => unitDefect q 64
  | .bar0RegisterWrite _ _ => none
  | .nopCommand q => unitDefect q 64
  | .ctxCreate q => unitDefect q 64
  | .ctxDestroy q => unitDefect q 64
  | .imgLoad q => unitDefect q 64
  | .imgUnload q => unitDefect q 64
  | .launch q => unitDefect q 64
  | .pipeBind q => unitDefect q 64
  | .attest q => unitDefect q 64
  | .priorityAging _ => none
  | .kernelPlacement => none
  | .quantumExpiry _ => none
  | .preemptionPoint core => unitDefect core 256
  | .saveComplete core => unitDefect core 256
  | .placementEnd rod => unitDefect rod 64
  | .restoreComplete core => unitDefect core 256
  | .kernelRetire _ => none
  | .finalAccounts asid => unitDefect asid 512
  | .abacusFlush core => unitDefect core 256
  | .acsEnable core => unitDefect core 256
  | .acsDisable core => unitDefect core 256
  | .chargeRunClose core => unitDefect core 256
  | .windowEnd rod => unitDefect rod 64
  | .fillerBundle core => unitDefect core 256
  | .stallBundle core => unitDefect core 256
  | .opChangeBegin rod => unitDefect rod 64
  | .rampEnd rod => unitDefect rod 64
  | .relockEnd rod => unitDefect rod 64
  | .permitSpent panel => unitDefect panel 16
  | .permitEarned panel => unitDefect panel 16
  | .boostFallSecondStep panel => unitDefect panel 16
  | .poolClaim panel => unitDefect panel 16
  | .poolGrant die => unitDefect die 2
  | .poolWithdraw panel => unitDefect panel 16
  | .powerSample _ => none
  | .thermalReading panel _ => unitDefect panel 16
  | .thermalDwellEnd panel => unitDefect panel 16
  | .clockGate rod => unitDefect rod 64
  | .railGate rod => unitDefect rod 64
  | .quiesceEnd rod => unitDefect rod 64
  | .saveStateEnd rod => unitDefect rod 64
  | .holdEnd rod => unitDefect rod 64
  | .railDownEnd rod => unitDefect rod 64
  | .wake core => unitDefect core 256
  | .inrushAdmit die => unitDefect die 2
  | .inrushRampEnd rod => unitDefect rod 64
  | .wakeRestoreEnd rod => unitDefect rod 64
  | .fetchFill core => unitDefect core 256
  | .loadReturn core _ => unitDefect core 4352
  | .storePerform core _ => unitDefect core 4352
  | .copyAccept core _ => unitDefect core 256
  | .copyComplete _ _ => none
  | .promiseMissed core _ => unitDefect core 256
  | .stagingResize rod _ => unitDefect rod 64
  | .stagingResizeComplete rod => unitDefect rod 64
  | .sync _ => none
  | .clear _ => none
  | .syncComplete => none
  | .probeAccept core => unitDefect core 256
  | .probeFault core => unitDefect core 256
  | .probeComplete core => unitDefect core (256 + 2 ^ 28)
  | .matrixOpStart core => unitDefect core 256
  | .matrixOpComplete core => unitDefect core 256
  | .specComplete core => unitDefect core 256
  | .barrierArrival core _ => unitDefect core 4352
  | .ticketGrant core => unitDefect core 256
  | .sleepEnd core => unitDefect core 256
  | .waitwEnd core => unitDefect core 256
  | .klaunchAccept core => unitDefect core 256
  | .stageElementLanded core _ => unitDefect core 256
  | .elementPublished entry => unitDefect entry 256
  | .channelBind peer chan _ => unitDefect peer 16 <|> unitDefect chan 16
  | .channelUnbind peer chan => unitDefect peer 16 <|> unitDefect chan 16
  | .creditGrant peer chan => unitDefect peer 16 <|> unitDefect chan 16
  | .sendAccept core _ => unitDefect core 256
  | .messageArrival peer chan _ => unitDefect peer 16 <|> unitDefect chan 16
  | .markerArrival peer chan _ => unitDefect peer 16 <|> unitDefect chan 16
  | .recvPosted core _ => unitDefect core 256
  | .recvAccept core _ => unitDefect core 256
  | .recvComplete _ _ => none
  | .contributionArrival slot _ => unitDefect slot 1024
  | .reductionTimeout slot => unitDefect slot 1024
  | .sendrAnswer core _ => unitDefect core 256
  | .remoteErrorReport asid _ => unitDefect asid 512
  | .gatecfgWrite die _ => unitDefect die 2
  | .gateLoad die _ => unitDefect die 2
  | .gateLoadComplete die => unitDefect die 2
  | .trapEntry core => unitDefect core 256
  | .watchdog core => unitDefect core 256
  | .tendWrite core _ => unitDefect core 256
  | .pet core => unitDefect core 256
  | .debugHalt core => unitDefect core 256
  | .debugStep core => unitDefect core 256
  | .debugResume core => unitDefect core 256
  | .debugSnap core => unitDefect core 256
  | .debugLoad core => unitDefect core 256
  | .patrolScrub _ => none
  | .pageRetirement _ => none
  | .wayQuarantine slice way => unitDefect slice 64 <|> unitDefect way 16
  | .errinjWrite _ => none
  | .sendComplete _ _ => none
  | .atomicReturn core _ => unitDefect core 4352
  | .reservedCommand q => unitDefect q 64
  | .fabricReset => none
  | .engineUnmappedPage _ _ => none
  | .engineErrorDetection _ _ _ => none

/-- An instruction that breaks no restriction. -/
def Instr.WellFormed (i : Instr) : Prop := i.defect = none

/-- Whether an instruction is well-formed, as a Boolean. -/
def Instr.wellFormed (i : Instr) : Bool := i.defect.isNone

/-- The named Boolean is the predicate. -/
theorem Instr.wellFormed_iff (i : Instr) : i.wellFormed = true ↔ i.WellFormed := by
  simp [Instr.wellFormed, Instr.WellFormed]

/-- The instructions that are slots of a bundle; the others are steps of the part without an encoding. -/
def Instr.isSlot (i : Instr) : Bool :=
  match i with
  | .packageReset => false
  | .hostLinkTraining _ _ _ => false
  | .doorbell _ _ => false
  | .lqcfgWrite _ _ => false
  | .bar0RegisterWrite _ _ => false
  | .nopCommand _ => false
  | .ctxCreate _ => false
  | .ctxDestroy _ => false
  | .imgLoad _ => false
  | .imgUnload _ => false
  | .launch _ => false
  | .pipeBind _ => false
  | .attest _ => false
  | .priorityAging _ => false
  | .kernelPlacement => false
  | .quantumExpiry _ => false
  | .preemptionPoint _ => false
  | .saveComplete _ => false
  | .placementEnd _ => false
  | .restoreComplete _ => false
  | .kernelRetire _ => false
  | .finalAccounts _ => false
  | .abacusFlush _ => false
  | .acsEnable _ => false
  | .acsDisable _ => false
  | .chargeRunClose _ => false
  | .windowEnd _ => false
  | .fillerBundle _ => false
  | .stallBundle _ => false
  | .opChangeBegin _ => false
  | .rampEnd _ => false
  | .relockEnd _ => false
  | .permitSpent _ => false
  | .permitEarned _ => false
  | .boostFallSecondStep _ => false
  | .poolClaim _ => false
  | .poolGrant _ => false
  | .poolWithdraw _ => false
  | .powerSample _ => false
  | .thermalReading _ _ => false
  | .thermalDwellEnd _ => false
  | .clockGate _ => false
  | .railGate _ => false
  | .quiesceEnd _ => false
  | .saveStateEnd _ => false
  | .holdEnd _ => false
  | .railDownEnd _ => false
  | .wake _ => false
  | .inrushAdmit _ => false
  | .inrushRampEnd _ => false
  | .wakeRestoreEnd _ => false
  | .fetchFill _ => false
  | .loadReturn _ _ => false
  | .storePerform _ _ => false
  | .copyAccept _ _ => false
  | .copyComplete _ _ => false
  | .promiseMissed _ _ => false
  | .stagingResize _ _ => false
  | .stagingResizeComplete _ => false
  | .sync _ => false
  | .clear _ => false
  | .syncComplete => false
  | .probeAccept _ => false
  | .probeFault _ => false
  | .probeComplete _ => false
  | .matrixOpStart _ => false
  | .matrixOpComplete _ => false
  | .specComplete _ => false
  | .barrierArrival _ _ => false
  | .ticketGrant _ => false
  | .sleepEnd _ => false
  | .waitwEnd _ => false
  | .klaunchAccept _ => false
  | .stageElementLanded _ _ => false
  | .elementPublished _ => false
  | .channelBind _ _ _ => false
  | .channelUnbind _ _ => false
  | .creditGrant _ _ => false
  | .sendAccept _ _ => false
  | .messageArrival _ _ _ => false
  | .markerArrival _ _ _ => false
  | .recvPosted _ _ => false
  | .recvAccept _ _ => false
  | .recvComplete _ _ => false
  | .contributionArrival _ _ => false
  | .reductionTimeout _ => false
  | .sendrAnswer _ _ => false
  | .remoteErrorReport _ _ => false
  | .gatecfgWrite _ _ => false
  | .gateLoad _ _ => false
  | .gateLoadComplete _ => false
  | .trapEntry _ => false
  | .watchdog _ => false
  | .tendWrite _ _ => false
  | .pet _ => false
  | .debugHalt _ => false
  | .debugStep _ => false
  | .debugResume _ => false
  | .debugSnap _ => false
  | .debugLoad _ => false
  | .patrolScrub _ => false
  | .pageRetirement _ => false
  | .wayQuarantine _ _ => false
  | .errinjWrite _ => false
  | .sendComplete _ _ => false
  | .atomicReturn _ _ => false
  | .reservedCommand _ => false
  | .fabricReset => false
  | .engineUnmappedPage _ _ => false
  | .engineErrorDetection _ _ _ => false
  | _ => true

end Sys2Proof
end

