-- ==== Sys2Proof/Decode.lean ====
section
/-!
DEFINITION. Decoding: from a 32-bit word to a slot, total, refusing by name (Tables 7-1, 7-7 to 7-12); and after it the
encoder, written from the same tables.
-/
namespace Sys2Proof

/-- Table 2-1. -/
def ElemTy.code : ElemTy → BitVec 4
  | .int8 => 0 | .uint8 => 1 | .int16 => 2 | .int32 => 3 | .fp16 => 4 | .bf16 => 5 | .fp32 => 6 | .db8 => 7 | .db4 => 8

/-- Table 2-1; codes 9 to 15 are reserved. -/
def ElemTy.ofCode (c : BitVec 4) : Option ElemTy :=
  match c with
  | 0#4 => some .int8 | 1#4 => some .uint8 | 2#4 => some .int16 | 3#4 => some .int32 | 4#4 => some .fp16
  | 5#4 => some .bf16 | 6#4 => some .fp32 | 7#4 => some .db8 | 8#4 => some .db4 | _ => none

def DbTy.code : DbTy → BitVec 4
  | .db8 => 7 | .db4 => 8

def DbTy.ofCode (c : BitVec 4) : Option DbTy :=
  match c with
  | 7#4 => some .db8 | 8#4 => some .db4 | _ => none

/-- Table 2-3. -/
def RMode.code : RMode → BitVec 2
  | .rne => 0 | .rtz => 1 | .rdn => 2 | .rup => 3

def RMode.ofCode (c : BitVec 2) : Option RMode :=
  match c with
  | 0#2 => some .rne | 1#2 => some .rtz | 2#2 => some .rdn | _ => some .rup

/-- Table 5-1. -/
def Scope.code : Scope → BitVec 3
  | .core => 0 | .rod => 1 | .panel => 2 | .chip => 3 | .domain => 4

/-- Table 5-1; codes 5 to 7 are reserved. -/
def Scope.ofCode (c : BitVec 3) : Option Scope :=
  match c with
  | 0#3 => some .core | 1#3 => some .rod | 2#3 => some .panel | 3#3 => some .chip | 4#3 => some .domain | _ => none

/-- LDELTA targets, Table 7-8: 0 to 15 are a0 to a15, 16 to 19 are c0 to c3. -/
def DeltaTarget.code : DeltaTarget → BitVec 5
  | .addr r => 0#1 ++ r
  | .cursor r => 0b100#3 ++ r

def DeltaTarget.ofCode (c : BitVec 5) : Option DeltaTarget :=
  if field c 4 1 = 0#1 then some (.addr (field c 0 4))
  else if field c 2 3 = 0b100#3 then some (.cursor (field c 0 2))
  else none

/-- One decoded slot (R117). -/
structure Slot where
  stop : Bool
  weight : BitVec 2
  instr : Instr
  deriving DecidableEq, Repr

/-- A field code that its table lists, or the refusal of a reserved one. -/
def listed {α : Type} (o : Option α) : Except DecodeErr α :=
  match o with
  | some a => .ok a
  | none => .error .reservedField

/-- A field that must be zero. -/
def zeros {n : Nat} {α : Type} (f : BitVec n) (k : Except DecodeErr α) : Except DecodeErr α :=
  if f = 0 then k else .error .nonzeroField

/-- MAJ 0x00 (Table 7-8). -/
def decRr (w : BitVec 32) : Except DecodeErr Instr :=
  match field w 0 6 with
  | 0#6 => .ok (.add (field w 21 3) (field w 16 5) (field w 11 5) (field w 6 5))
  | 1#6 => .ok (.sub (field w 21 3) (field w 16 5) (field w 11 5) (field w 6 5))
  | 2#6 => .ok (.and (field w 21 3) (field w 16 5) (field w 11 5) (field w 6 5))
  | 3#6 => .ok (.or (field w 21 3) (field w 16 5) (field w 11 5) (field w 6 5))
  | 4#6 => .ok (.xor (field w 21 3) (field w 16 5) (field w 11 5) (field w 6 5))
  | 5#6 => .ok (.andn (field w 21 3) (field w 16 5) (field w 11 5) (field w 6 5))
  | 6#6 => .ok (.sll (field w 21 3) (field w 16 5) (field w 11 5) (field w 6 5))
  | 7#6 => .ok (.srl (field w 21 3) (field w 16 5) (field w 11 5) (field w 6 5))
  | 8#6 => .ok (.sra (field w 21 3) (field w 16 5) (field w 11 5) (field w 6 5))
  | 9#6 => .ok (.ror (field w 21 3) (field w 16 5) (field w 11 5) (field w 6 5))
  | 10#6 => .ok (.mul (field w 21 3) (field w 16 5) (field w 11 5) (field w 6 5))
  | 11#6 => .ok (.mulh (field w 21 3) (field w 16 5) (field w 11 5) (field w 6 5))
  | 12#6 => .ok (.mulhu (field w 21 3) (field w 16 5) (field w 11 5) (field w 6 5))
  | 13#6 => .ok (.div (field w 21 3) (field w 16 5) (field w 11 5) (field w 6 5))
  | 14#6 => .ok (.divu (field w 21 3) (field w 16 5) (field w 11 5) (field w 6 5))
  | 15#6 => .ok (.rem (field w 21 3) (field w 16 5) (field w 11 5) (field w 6 5))
  | 16#6 => .ok (.remu (field w 21 3) (field w 16 5) (field w 11 5) (field w 6 5))
  | 17#6 => .ok (.min (field w 21 3) (field w 16 5) (field w 11 5) (field w 6 5))
  | 18#6 => .ok (.max (field w 21 3) (field w 16 5) (field w 11 5) (field w 6 5))
  | 19#6 => .ok (.minu (field w 21 3) (field w 16 5) (field w 11 5) (field w 6 5))
  | 20#6 => .ok (.maxu (field w 21 3) (field w 16 5) (field w 11 5) (field w 6 5))
  | 21#6 => .ok (.slt (field w 21 3) (field w 16 5) (field w 11 5) (field w 6 5))
  | 22#6 => .ok (.sltu (field w 21 3) (field w 16 5) (field w 11 5) (field w 6 5))
  | 23#6 => .ok (.seq (field w 21 3) (field w 16 5) (field w 11 5) (field w 6 5))
  | 24#6 => zeros (field w 6 5) (.ok (.clz (field w 21 3) (field w 16 5) (field w 11 5)))
  | 25#6 => zeros (field w 6 5) (.ok (.ctz (field w 21 3) (field w 16 5) (field w 11 5)))
  | 26#6 => zeros (field w 6 5) (.ok (.popc (field w 21 3) (field w 16 5) (field w 11 5)))
  | _ => .error .reservedFunction

/-- MAJ 0x01 (Table 7-8). -/
def decRi (w : BitVec 32) : Except DecodeErr Instr :=
  match field w 20 4 with
  | 0#4 => .ok (.addi (field w 15 5) (field w 10 5) (field w 0 10))
  | 1#4 => .ok (.andi (field w 15 5) (field w 10 5) (field w 0 10))
  | 2#4 => .ok (.ori (field w 15 5) (field w 10 5) (field w 0 10))
  | 3#4 => .ok (.xori (field w 15 5) (field w 10 5) (field w 0 10))
  | 4#4 => zeros (field w 6 4) (.ok (.slli (field w 15 5) (field w 10 5) (field w 0 6)))
  | 5#4 => zeros (field w 6 4) (.ok (.srli (field w 15 5) (field w 10 5) (field w 0 6)))
  | 6#4 => zeros (field w 6 4) (.ok (.srai (field w 15 5) (field w 10 5) (field w 0 6)))
  | 7#4 => .ok (.slti (field w 15 5) (field w 10 5) (field w 0 10))
  | 8#4 => .ok (.sltui (field w 15 5) (field w 10 5) (field w 0 10))
  | 9#4 => .ok (.muli (field w 15 5) (field w 10 5) (field w 0 10))
  | _ => .error .reservedFunction

/-- MAJ 0x02 (Table 7-8). -/
def decU (w : BitVec 32) : Except DecodeErr Instr :=
  match field w 23 1 with
  | 0#1 => .ok (.lui (field w 18 5) (field w 0 18))
  | 1#1 => .ok (.auipc (field w 18 5) (field w 0 18))

/-- MAJ 0x03 (Table 7-8). -/
def decBr (w : BitVec 32) : Except DecodeErr Instr :=
  match field w 21 3 with
  | 0#3 => .ok (.beq (field w 16 5) (field w 11 5) (field w 0 11))
  | 1#3 => .ok (.bne (field w 16 5) (field w 11 5) (field w 0 11))
  | 2#3 => .ok (.blt (field w 16 5) (field w 11 5) (field w 0 11))
  | 3#3 => .ok (.bge (field w 16 5) (field w 11 5) (field w 0 11))
  | 4#3 => .ok (.bltu (field w 16 5) (field w 11 5) (field w 0 11))
  | 5#3 => .ok (.bgeu (field w 16 5) (field w 11 5) (field w 0 11))
  | 6#3 => zeros (field w 19 2) (zeros (field w 11 5) (.ok (.bp (field w 16 3) (field w 0 11))))
  | 7#3 => zeros (field w 19 2) (zeros (field w 11 5) (.ok (.bnp (field w 16 3) (field w 0 11))))

/-- MAJ 0x04 (Table 7-8). -/
def decJ (w : BitVec 32) : Except DecodeErr Instr :=
  match field w 22 2 with
  | 0#2 => zeros (field w 17 5) (.ok (.j (field w 0 17)))
  | 1#2 => .ok (.jal (field w 17 5) (field w 0 17))
  | 2#2 => .ok (.jr (field w 17 5) (field w 0 17))
  | 3#2 => .ok (.jalr (field w 17 5) (field w 0 17))

/-- MAJ 0x05 (Table 7-8). -/
def decLoop (w : BitVec 32) : Except DecodeErr Instr :=
  match field w 22 2 with
  | 0#2 => zeros (field w 0 7) (.ok (.loop (field w 20 2) (field w 15 5) (field w 7 8)))
  | 1#2 => listed (DeltaTarget.ofCode (field w 15 5)) >>= fun target => .ok (.ldelta (field w 20 2) target (field w 0 15))
  | 2#2 => zeros (field w 0 20) (.ok (.lbrk (field w 20 2)))
  | 3#2 => zeros (field w 0 20) (.ok (.lclr (field w 20 2)))

/-- MAJ 0x06 (Table 7-8). -/
def decMisc (w : BitVec 32) : Except DecodeErr Instr :=
  match field w 18 6 with
  | 0#6 => zeros (field w 0 9) (.ok (.movxa (field w 14 4) (field w 9 5)))
  | 1#6 => zeros (field w 0 9) (.ok (.movax (field w 13 5) (field w 9 4)))
  | 2#6 => zeros (field w 0 11) (.ok (.movxc (field w 16 2) (field w 11 5)))
  | 3#6 => zeros (field w 0 11) (.ok (.movcx (field w 13 5) (field w 11 2)))
  | 4#6 => zeros (field w 0 10) (.ok (.pset (field w 15 3) (field w 10 5)))
  | 5#6 => zeros (field w 0 9) (.ok (.pand (field w 15 3) (field w 12 3) (field w 9 3)))
  | 6#6 => zeros (field w 0 9) (.ok (.por (field w 15 3) (field w 12 3) (field w 9 3)))
  | 7#6 => zeros (field w 0 9) (.ok (.pxor (field w 15 3) (field w 12 3) (field w 9 3)))
  | 8#6 => zeros (field w 0 12) (.ok (.pnot (field w 15 3) (field w 12 3)))
  | 9#6 => zeros (field w 0 4) (.ok (.rdctl (field w 13 5) (field w 4 9)))
  | 10#6 => zeros (field w 0 4) (.ok (.wrctl (field w 13 5) (field w 4 9)))
  | 11#6 => zeros (field w 0 13) (.ok (.rdcyc (field w 13 5)))
  | 12#6 => .ok (.sel (field w 13 5) (field w 8 5) (field w 3 5) (field w 0 3))
  | _ => .error .reservedFunction

/-- MAJ 0x07 (Table 7-8). -/
def decSys (w : BitVec 32) : Except DecodeErr Instr :=
  match field w 18 6 with
  | 0#6 => zeros (field w 0 18) (.ok (.nop))
  | 1#6 => zeros (field w 0 18) (.ok (.halt))
  | 2#6 => zeros (field w 16 2) (.ok (.trap (field w 0 16)))
  | 3#6 => zeros (field w 0 18) (.ok (.rfe))
  | 4#6 => zeros (field w 0 13) (.ok (.sleepu (field w 13 5)))
  | 5#6 => zeros (field w 0 15) (listed (Scope.ofCode (field w 15 3)) >>= fun scope => .ok (.fence scope))
  | 6#6 => zeros (field w 0 15) (.ok (.opsel (field w 15 3)))
  | 7#6 => zeros (field w 0 9) (.ok (.klaunch (field w 13 5) (field w 9 4)))
  | 8#6 => zeros (field w 0 18) (.ok (.yield))
  | 9#6 => zeros (field w 16 2) (.ok (.brk (field w 0 16)))
  | 10#6 => zeros (field w 0 13) (.ok (.waitw (field w 13 5)))
  | 11#6 => zeros (field w 0 9) (.ok (.accrd (field w 13 5) (field w 9 4)))
  | _ => .error .reservedFunction

/-- MAJ 0x08 (Table 7-9). -/
def decVrr (w : BitVec 32) : Except DecodeErr Instr :=
  match field w 0 6 with
  | 0#6 => .ok (.vadd (field w 18 6) (field w 12 6) (field w 6 6))
  | 1#6 => .ok (.vsub (field w 18 6) (field w 12 6) (field w 6 6))
  | 2#6 => .ok (.vmul (field w 18 6) (field w 12 6) (field w 6 6))
  | 3#6 => .ok (.vfma (field w 18 6) (field w 12 6) (field w 6 6))
  | 4#6 => .ok (.vmin (field w 18 6) (field w 12 6) (field w 6 6))
  | 5#6 => .ok (.vmax (field w 18 6) (field w 12 6) (field w 6 6))
  | 6#6 => .ok (.vand (field w 18 6) (field w 12 6) (field w 6 6))
  | 7#6 => .ok (.vor (field w 18 6) (field w 12 6) (field w 6 6))
  | 8#6 => .ok (.vxor (field w 18 6) (field w 12 6) (field w 6 6))
  | 9#6 => .ok (.vshl (field w 18 6) (field w 12 6) (field w 6 6))
  | 10#6 => .ok (.vshr (field w 18 6) (field w 12 6) (field w 6 6))
  | 11#6 => .ok (.vsel (field w 18 6) (field w 12 6) (field w 6 6))
  | 12#6 => .ok (.vcmpeq (field w 18 6) (field w 12 6) (field w 6 6))
  | 13#6 => .ok (.vcmplt (field w 18 6) (field w 12 6) (field w 6 6))
  | 14#6 => .ok (.vcmple (field w 18 6) (field w 12 6) (field w 6 6))
  | 15#6 => .ok (.vabsd (field w 18 6) (field w 12 6) (field w 6 6))
  | _ => .error .reservedFunction

/-- MAJ 0x09 (Table 7-9). -/
def decVrs (w : BitVec 32) : Except DecodeErr Instr :=
  match field w 3 4 with
  | 0#4 => zeros (field w 0 3) (.ok (.vadds (field w 18 6) (field w 12 6) (field w 7 5)))
  | 1#4 => zeros (field w 0 3) (.ok (.vmuls (field w 18 6) (field w 12 6) (field w 7 5)))
  | 2#4 => zeros (field w 0 3) (.ok (.vfmas (field w 18 6) (field w 12 6) (field w 7 5)))
  | 3#4 => zeros (field w 0 3) (.ok (.vmins (field w 18 6) (field w 12 6) (field w 7 5)))
  | 4#4 => zeros (field w 0 3) (.ok (.vmaxs (field w 18 6) (field w 12 6) (field w 7 5)))
  | 5#4 => zeros (field w 12 6) (zeros (field w 0 3) (.ok (.vsplat (field w 18 6) (field w 7 5))))
  | _ => .error .reservedFunction

/-- MAJ 0x0A (Table 7-9). -/
def decCvt (w : BitVec 32) : Except DecodeErr Instr :=
  match field w 0 6 with
  | 0#6 => listed (ElemTy.ofCode (field w 8 4)) >>= fun ty => listed (RMode.ofCode (field w 6 2)) >>= fun rnd => .ok (.vcvt (field w 18 6) (field w 12 6) ty rnd)
  | 1#6 => zeros (field w 18 6) (zeros (field w 6 2) (listed (DbTy.ofCode (field w 8 4)) >>= fun ty => .ok (.vmaxexp (field w 12 6) ty)))
  | 2#6 => zeros (field w 6 2) (listed (DbTy.ofCode (field w 8 4)) >>= fun ty => .ok (.vqnt (field w 18 6) (field w 12 6) ty))
  | 3#6 => zeros (field w 6 2) (listed (DbTy.ofCode (field w 8 4)) >>= fun ty => .ok (.vdqnt (field w 18 6) (field w 12 6) ty))
  | 4#6 => zeros (field w 8 4) (listed (RMode.ofCode (field w 6 2)) >>= fun rnd => .ok (.vrnd (field w 18 6) (field w 12 6) rnd))
  | _ => .error .reservedFunction

/-- MAJ 0x0B (Table 7-9). -/
def decRed (w : BitVec 32) : Except DecodeErr Instr :=
  match field w 0 6 with
  | 0#6 => zeros (field w 6 6) (.ok (.vrsum (field w 18 6) (field w 12 6)))
  | 1#6 => zeros (field w 6 6) (.ok (.vrmax (field w 18 6) (field w 12 6)))
  | 2#6 => zeros (field w 6 6) (.ok (.vrmin (field w 18 6) (field w 12 6)))
  | 3#6 => zeros (field w 6 6) (.ok (.vramax (field w 18 6) (field w 12 6)))
  | 4#6 => .ok (.vperm (field w 18 6) (field w 12 6) (field w 6 6))
  | 5#6 => zeros (field w 23 1) (zeros (field w 6 1) (.ok (.vext (field w 18 5) (field w 12 6) (field w 7 5))))
  | 6#6 => zeros (field w 6 2) (.ok (.vins (field w 18 6) (field w 13 5) (field w 8 5)))
  | 7#6 => zeros (field w 6 12) (.ok (.viota (field w 18 6)))
  | 8#6 => .ok (.vcompr (field w 18 6) (field w 12 6) (field w 6 6))
  | _ => .error .reservedFunction

/-- MAJ 0x0C (Table 7-9). -/
def decTile (w : BitVec 32) : Except DecodeErr Instr :=
  match field w 0 4 with
  | 0#4 => zeros (field w 4 4) (listed (ElemTy.ofCode (field w 16 4)) >>= fun ty => .ok (.tcfg (field w 20 4) ty (field w 10 6) (field w 9 1) (field w 8 1)))
  | 1#4 => zeros (field w 4 16) (.ok (.tzero (field w 20 4)))
  | 2#4 => zeros (field w 4 12) (.ok (.tmov (field w 20 4) (field w 16 4)))
  | 3#4 => zeros (field w 4 9) (.ok (.ttag (field w 20 4) (field w 18 2) (field w 13 5)))
  | _ => .error .reservedFunction

/-- MAJ 0x0D (Table 7-9). -/
def decLdst (w : BitVec 32) : Except DecodeErr Instr :=
  match field w 2 2 with
  | 0#2 => zeros (field w 0 2) (.ok (.vld (field w 18 6) (field w 14 4) (field w 4 10)))
  | 1#2 => zeros (field w 0 2) (.ok (.vst (field w 18 6) (field w 14 4) (field w 4 10)))
  | 2#2 => zeros (field w 18 6) (zeros (field w 0 2) (.ok (.vlde (field w 14 4) (field w 4 10))))
  | 3#2 => zeros (field w 18 6) (zeros (field w 0 2) (.ok (.vste (field w 14 4) (field w 4 10))))

/-- MAJ 0x0E (Table 7-10). -/
def decFn (w : BitVec 32) : Except DecodeErr Instr :=
  match field w 9 3 with
  | 0#3 => zeros (field w 0 9) (.ok (.frcp (field w 18 6) (field w 12 6)))
  | 1#3 => zeros (field w 0 9) (.ok (.frsq (field w 18 6) (field w 12 6)))
  | 2#3 => zeros (field w 0 9) (.ok (.fsqrt (field w 18 6) (field w 12 6)))
  | 3#3 => zeros (field w 0 9) (.ok (.fexp2 (field w 18 6) (field w 12 6)))
  | 4#3 => zeros (field w 0 9) (.ok (.flog2 (field w 18 6) (field w 12 6)))
  | 5#3 => zeros (field w 0 9) (.ok (.fexpt (field w 18 6) (field w 12 6)))
  | 6#3 => zeros (field w 0 9) (.ok (.ftanh (field w 18 6) (field w 12 6)))
  | 7#3 => zeros (field w 0 9) (.ok (.fsigm (field w 18 6) (field w 12 6)))

/-- MAJ 0x0F (Table 7-10). -/
def decGate (w : BitVec 32) : Except DecodeErr Instr :=
  match field w 0 2 with
  | 0#2 => zeros (field w 2 7) (.ok (.gtopk (field w 18 6) (field w 12 6) (field w 9 3)))
  | 1#2 => zeros (field w 2 7) (.ok (.gsmax (field w 18 6) (field w 12 6) (field w 9 3)))
  | 2#2 => zeros (field w 2 10) (.ok (.ghist (field w 18 6) (field w 12 6)))
  | _ => .error .reservedFunction

/-- MAJ 0x10 (Table 7-10). -/
def decMma (w : BitVec 32) : Except DecodeErr Instr :=
  match field w 0 2 with
  | 0#2 => .ok (.mma (field w 20 4) (field w 16 4) (field w 10 6) (field w 6 4) (field w 2 4))
  | 1#2 => .ok (.mmaz (field w 20 4) (field w 16 4) (field w 10 6) (field w 6 4) (field w 2 4))
  | 2#2 => .ok (.mmat (field w 20 4) (field w 16 4) (field w 10 6) (field w 6 4) (field w 2 4))
  | _ => .error .reservedFunction

/-- MAJ 0x11 (Table 7-10). -/
def decMmag (w : BitVec 32) : Except DecodeErr Instr :=
  .ok (.mmag (field w 20 4) (field w 14 6) (field w 8 6) (field w 4 4) (field w 0 4))

/-- MAJ 0x12 (Table 7-10). -/
def decCtl (w : BitVec 32) : Except DecodeErr Instr :=
  match field w 22 2 with
  | 0#2 => zeros (field w 10 1) (zeros (field w 0 2) (.ok (.mgset (field w 16 6) (field w 11 5) (field w 6 4) (field w 2 4))))
  | 1#2 => zeros (field w 10 12) (zeros (field w 0 2) (.ok (.mdrain (field w 6 4) (field w 2 4))))
  | _ => .error .reservedFunction

/-- MAJ 0x13 (Table 7-10). -/
def decSpec (w : BitVec 32) : Except DecodeErr Instr :=
  match field w 0 5 with
  | 0#5 => .ok (.resolve (field w 20 4) (field w 16 4) (field w 10 6) (field w 5 5))
  | 1#5 => zeros (field w 5 11) (.ok (.tcommit (field w 20 4) (field w 16 4)))
  | 2#5 => zeros (field w 20 4) (zeros (field w 5 11) (.ok (.tsquash (field w 16 4))))
  | 3#5 => zeros (field w 10 14) (.ok (.rlist (field w 5 5)))
  | _ => .error .reservedFunction

/-- MAJ 0x14 (Table 7-11). -/
def decLd (w : BitVec 32) : Except DecodeErr Instr :=
  match field w 18 3 with
  | 0#3 => .ok (.ldbu (field w 21 3) (field w 13 5) (field w 9 4) (field w 0 9))
  | 1#3 => .ok (.ldb (field w 21 3) (field w 13 5) (field w 9 4) (field w 0 9))
  | 2#3 => .ok (.ldhu (field w 21 3) (field w 13 5) (field w 9 4) (field w 0 9))
  | 3#3 => .ok (.ldh (field w 21 3) (field w 13 5) (field w 9 4) (field w 0 9))
  | 4#3 => .ok (.ldwu (field w 21 3) (field w 13 5) (field w 9 4) (field w 0 9))
  | 5#3 => .ok (.ldw (field w 21 3) (field w 13 5) (field w 9 4) (field w 0 9))
  | 6#3 => .ok (.ldd (field w 21 3) (field w 13 5) (field w 9 4) (field w 0 9))
  | _ => .error .reservedFunction

/-- MAJ 0x15 (Table 7-11). -/
def decSt (w : BitVec 32) : Except DecodeErr Instr :=
  match field w 19 2 with
  | 0#2 => zeros (field w 18 1) (.ok (.stb (field w 21 3) (field w 13 5) (field w 9 4) (field w 0 9)))
  | 1#2 => zeros (field w 18 1) (.ok (.sth (field w 21 3) (field w 13 5) (field w 9 4) (field w 0 9)))
  | 2#2 => zeros (field w 18 1) (.ok (.stw (field w 21 3) (field w 13 5) (field w 9 4) (field w 0 9)))
  | 3#2 => zeros (field w 18 1) (.ok (.std (field w 21 3) (field w 13 5) (field w 9 4) (field w 0 9)))

/-- MAJ 0x16 (Table 7-11). -/
def decAtom (w : BitVec 32) : Except DecodeErr Instr :=
  match field w 18 3 with
  | 0#3 => if field w 3 1 = 1#1 then (listed (Scope.ofCode (field w 21 3)) >>= fun scope => .ok (.aadd scope (field w 13 5) (field w 9 4) (field w 4 5) (field w 2 1) (field w 0 2))) else .error .reservedField
  | 1#3 => if field w 3 1 = 1#1 then (listed (Scope.ofCode (field w 21 3)) >>= fun scope => .ok (.amax scope (field w 13 5) (field w 9 4) (field w 4 5) (field w 2 1) (field w 0 2))) else .error .reservedField
  | 2#3 => if field w 3 1 = 1#1 then (listed (Scope.ofCode (field w 21 3)) >>= fun scope => .ok (.amin scope (field w 13 5) (field w 9 4) (field w 4 5) (field w 2 1) (field w 0 2))) else .error .reservedField
  | 3#3 => if field w 3 1 = 1#1 then (listed (Scope.ofCode (field w 21 3)) >>= fun scope => .ok (.amaxu scope (field w 13 5) (field w 9 4) (field w 4 5) (field w 2 1) (field w 0 2))) else .error .reservedField
  | 4#3 => if field w 3 1 = 1#1 then (listed (Scope.ofCode (field w 21 3)) >>= fun scope => .ok (.axchg scope (field w 13 5) (field w 9 4) (field w 4 5) (field w 2 1) (field w 0 2))) else .error .reservedField
  | 5#3 => if field w 3 1 = 1#1 then (listed (Scope.ofCode (field w 21 3)) >>= fun scope => .ok (.acas scope (field w 13 5) (field w 9 4) (field w 4 5) (field w 2 1) (field w 0 2))) else .error .reservedField
  | 6#3 => if field w 3 1 = 1#1 then (listed (Scope.ofCode (field w 21 3)) >>= fun scope => .ok (.aand scope (field w 13 5) (field w 9 4) (field w 4 5) (field w 2 1) (field w 0 2))) else .error .reservedField
  | 7#3 => if field w 3 1 = 1#1 then (listed (Scope.ofCode (field w 21 3)) >>= fun scope => .ok (.aor scope (field w 13 5) (field w 9 4) (field w 4 5) (field w 2 1) (field w 0 2))) else .error .reservedField

/-- MAJ 0x17 (Table 7-11). -/
def decCopy (w : BitVec 32) : Except DecodeErr Instr :=
  match field w 0 4 with
  | 0#4 => .ok (.cpy (field w 18 6) (field w 12 6) (field w 8 4) (field w 4 4))
  | 1#4 => .ok (.cpycv (field w 18 6) (field w 12 6) (field w 8 4) (field w 4 4))
  | 2#4 => .ok (.cpyz (field w 18 6) (field w 12 6) (field w 8 4) (field w 4 4))
  | 3#4 => .ok (.cpyl2 (field w 18 6) (field w 12 6) (field w 8 4) (field w 4 4))
  | 4#4 => zeros (field w 12 6) (.ok (.cpypf (field w 18 6) (field w 8 4) (field w 4 4)))
  | 5#4 => zeros (field w 12 6) (.ok (.cpywb (field w 18 6) (field w 8 4) (field w 4 4)))
  | _ => .error .reservedFunction

/-- MAJ 0x18 (Table 7-12). -/
def decTok (w : BitVec 32) : Except DecodeErr Instr :=
  match field w 20 4 with
  | 0#4 => zeros (field w 0 16) (.ok (.tkwait (field w 16 4)))
  | 1#4 => zeros (field w 0 11) (.ok (.tktest (field w 16 4) (field w 11 5)))
  | 2#4 => zeros (field w 0 4) (.ok (.tkjoin (field w 16 4) (field w 12 4) (field w 8 4) (field w 4 4)))
  | 3#4 => zeros (field w 0 11) (.ok (.tkprom (field w 16 4) (field w 11 5)))
  | 4#4 => zeros (field w 15 1) (zeros (field w 0 14) (.ok (.tkset (field w 16 4) (field w 14 1))))
  | 5#4 => zeros (field w 0 6) (.ok (.probe (field w 14 6) (field w 10 4) (field w 6 4)))
  | 6#4 => zeros (field w 0 6) (.ok (.probew (field w 14 6) (field w 10 4) (field w 6 4)))
  | _ => .error .reservedFunction

/-- MAJ 0x19 (Table 7-12). -/
def decSync (w : BitVec 32) : Except DecodeErr Instr :=
  match field w 20 4 with
  | 0#4 => zeros (field w 8 4) (listed (Scope.ofCode (field w 17 3)) >>= fun scope => .ok (.bar scope (field w 12 5) (field w 4 4) (field w 0 4)))
  | 1#4 => zeros (field w 0 11) (.ok (.barba (field w 16 4) (field w 11 5)))
  | 2#4 => zeros (field w 8 8) (.ok (.barbw (field w 16 4) (field w 4 4) (field w 0 4)))
  | 3#4 => zeros (field w 0 7) (.ok (.rtick (field w 12 8) (field w 7 5)))
  | 4#4 => zeros (field w 0 3) (.ok (.rfill (field w 12 8) (field w 7 5) (field w 3 4)))
  | 5#4 => zeros (field w 0 7) (.ok (.rtake (field w 12 8) (field w 7 5)))
  | 6#4 => zeros (field w 8 4) (.ok (.rwait (field w 12 8) (field w 4 4) (field w 0 4)))
  | 7#4 => zeros (field w 0 10) (.ok (.pqpush (field w 15 5) (field w 10 5)))
  | 8#4 => zeros (field w 0 15) (.ok (.pqpop (field w 15 5)))
  | _ => .error .reservedFunction

/-- MAJ 0x1A (Table 7-12). -/
def decLink (w : BitVec 32) : Except DecodeErr Instr :=
  match field w 20 4 with
  | 0#4 => .ok (if field w 8 1 = 0#1 then .send (field w 14 6) (field w 9 5) (field w 4 4) (field w 0 4) else .sendQ (field w 14 6) (field w 9 5) (field w 4 4) (field w 0 4))
  | 1#4 => zeros (field w 8 1) (.ok (.sendr (field w 14 6) (field w 9 5) (field w 4 4) (field w 0 4)))
  | 2#4 => zeros (field w 8 1) (.ok (.recv (field w 14 6) (field w 9 5) (field w 4 4) (field w 0 4)))
  | 3#4 => zeros (field w 0 10) (.ok (.recvq (field w 15 5) (field w 10 5)))
  | 4#4 => zeros (field w 14 6) (zeros (field w 0 9) (.ok (.gretire (field w 9 5))))
  | 5#4 => zeros (field w 8 1) (.ok (.sendG (field w 14 6) (field w 9 5) (field w 4 4) (field w 0 4)))
  | _ => .error .reservedFunction

/-- MAJ 0x1B (Table 7-12). -/
def decPred (w : BitVec 32) : Except DecodeErr Instr :=
  match field w 20 4 with
  | 0#4 => zeros (field w 0 10) (.ok (.plook (field w 15 5) (field w 10 5)))
  | 1#4 => zeros (field w 15 5) (zeros (field w 0 5) (.ok (.ptrain (field w 10 5) (field w 5 5))))
  | 2#4 => zeros (field w 0 20) (.ok (.pclr))
  | 3#4 => zeros (field w 15 5) (zeros (field w 0 10) (.ok (.pcfg (field w 10 5))))
  | _ => .error .reservedFunction

/-- MAJ 0x1C (Table 7-12). -/
def decLace (w : BitVec 32) : Except DecodeErr Instr :=
  match field w 20 4 with
  | 0#4 => zeros (field w 0 15) (.ok (.sjoin (field w 15 5)))
  | 1#4 => zeros (field w 8 6) (.ok (.spub (field w 14 6) (field w 4 4) (field w 0 4)))
  | 2#4 => zeros (field w 8 6) (.ok (.scons (field w 14 6) (field w 4 4) (field w 0 4)))
  | _ => .error .reservedFunction

/-- The instruction of a word by its major opcode (Table 7-7), before the restrictions of `Instr.defect`. -/
def decodeMajor (w : BitVec 32) : Except DecodeErr Instr :=
  match field w 24 5 with
  | 0#5 => decRr w
  | 1#5 => decRi w
  | 2#5 => decU w
  | 3#5 => decBr w
  | 4#5 => decJ w
  | 5#5 => decLoop w
  | 6#5 => decMisc w
  | 7#5 => decSys w
  | 8#5 => decVrr w
  | 9#5 => decVrs w
  | 10#5 => decCvt w
  | 11#5 => decRed w
  | 12#5 => decTile w
  | 13#5 => decLdst w
  | 14#5 => decFn w
  | 15#5 => decGate w
  | 16#5 => decMma w
  | 17#5 => decMmag w
  | 18#5 => decCtl w
  | 19#5 => decSpec w
  | 20#5 => decLd w
  | 21#5 => decSt w
  | 22#5 => decAtom w
  | 23#5 => decCopy w
  | 24#5 => decTok w
  | 25#5 => decSync w
  | 26#5 => decLink w
  | 27#5 => decPred w
  | 28#5 => decLace w
  | _ => .error .reservedMajor

/-- The instruction of a word; the errors are reason 0 of Table 7-6. -/
def decodeInstr (w : BitVec 32) : Except DecodeErr Instr :=
  match decodeMajor w with
  | .error e => .error e
  | .ok i =>
    match i.defect with
    | some e => .error e
    | none => .ok i

/-- A word as a slot: stop bit, declared weight, instruction (Table 7-1). -/
def decodeSlot (w : BitVec 32) : Except DecodeErr Slot :=
  match decodeInstr w with
  | .error e => .error e
  | .ok i => .ok { stop := field w 31 1 = 1#1, weight := field w 29 2, instr := i }

/-- Four bytes at ascending addresses as a little-endian word (R2, R24). -/
def wordOfBytes (b0 b1 b2 b3 : Byte) : BitVec 32 := b3 ++ b2 ++ b1 ++ b0

/-- The four bytes of a word, byte 0 first (R2). -/
def bytesOfWord (w : BitVec 32) : List Byte := [field w 0 8, field w 8 8, field w 16 8, field w 24 8]

/-- The instruction the decoder reads from the bytes at an address: the first four of them (R115). -/
def decodeBytes (bs : List Byte) : Option Instr :=
  match bs with
  | b0 :: b1 :: b2 :: b3 :: _ =>
    match decodeSlot (wordOfBytes b0 b1 b2 b3) with
    | .ok sl => some sl.instr
    | .error _ => none
  | _ => none

/-- The instruction read from a word whose bits are numbered as the opcode table numbers them. Every row with an encoding has
32 bits; the steps of the part have none. -/
def decodeTableWord (nbits w : Nat) : Option Instr :=
  if nbits = 0 then none else decodeBytes (bytesOfWord (BitVec.ofNat 32 (w % 2 ^ nbits)))

/-- The major opcode and bits[23:0] of a slot instruction (Tables 7-7 to 7-12); a step of the part has none. -/
def encodeBody (i : Instr) : Option (BitVec 5 × BitVec 24) :=
  match i with
  | .add pg xd xa xb => some (0, pg ++ xd ++ xa ++ xb ++ 0#6)
  | .sub pg xd xa xb => some (0, pg ++ xd ++ xa ++ xb ++ 1#6)
  | .and pg xd xa xb => some (0, pg ++ xd ++ xa ++ xb ++ 2#6)
  | .or pg xd xa xb => some (0, pg ++ xd ++ xa ++ xb ++ 3#6)
  | .xor pg xd xa xb => some (0, pg ++ xd ++ xa ++ xb ++ 4#6)
  | .andn pg xd xa xb => some (0, pg ++ xd ++ xa ++ xb ++ 5#6)
  | .sll pg xd xa xb => some (0, pg ++ xd ++ xa ++ xb ++ 6#6)
  | .srl pg xd xa xb => some (0, pg ++ xd ++ xa ++ xb ++ 7#6)
  | .sra pg xd xa xb => some (0, pg ++ xd ++ xa ++ xb ++ 8#6)
  | .ror pg xd xa xb => some (0, pg ++ xd ++ xa ++ xb ++ 9#6)
  | .mul pg xd xa xb => some (0, pg ++ xd ++ xa ++ xb ++ 10#6)
  | .mulh pg xd xa xb => some (0, pg ++ xd ++ xa ++ xb ++ 11#6)
  | .mulhu pg xd xa xb => some (0, pg ++ xd ++ xa ++ xb ++ 12#6)
  | .div pg xd xa xb => some (0, pg ++ xd ++ xa ++ xb ++ 13#6)
  | .divu pg xd xa xb => some (0, pg ++ xd ++ xa ++ xb ++ 14#6)
  | .rem pg xd xa xb => some (0, pg ++ xd ++ xa ++ xb ++ 15#6)
  | .remu pg xd xa xb => some (0, pg ++ xd ++ xa ++ xb ++ 16#6)
  | .min pg xd xa xb => some (0, pg ++ xd ++ xa ++ xb ++ 17#6)
  | .max pg xd xa xb => some (0, pg ++ xd ++ xa ++ xb ++ 18#6)
  | .minu pg xd xa xb => some (0, pg ++ xd ++ xa ++ xb ++ 19#6)
  | .maxu pg xd xa xb => some (0, pg ++ xd ++ xa ++ xb ++ 20#6)
  | .slt pg xd xa xb => some (0, pg ++ xd ++ xa ++ xb ++ 21#6)
  | .sltu pg xd xa xb => some (0, pg ++ xd ++ xa ++ xb ++ 22#6)
  | .seq pg xd xa xb => some (0, pg ++ xd ++ xa ++ xb ++ 23#6)
  | .clz pg xd xa => some (0, pg ++ xd ++ xa ++ 24#11)
  | .ctz pg xd xa => some (0, pg ++ xd ++ xa ++ 25#11)
  | .popc pg xd xa => some (0, pg ++ xd ++ xa ++ 26#11)
  | .addi xd xa imm => some (1, 0#4 ++ xd ++ xa ++ imm)
  | .andi xd xa imm => some (1, 1#4 ++ xd ++ xa ++ imm)
  | .ori xd xa imm => some (1, 2#4 ++ xd ++ xa ++ imm)
  | .xori xd xa imm => some (1, 3#4 ++ xd ++ xa ++ imm)
  | .slli xd xa imm => some (1, 4#4 ++ xd ++ xa ++ 0#4 ++ imm)
  | .srli xd xa imm => some (1, 5#4 ++ xd ++ xa ++ 0#4 ++ imm)
  | .srai xd xa imm => some (1, 6#4 ++ xd ++ xa ++ 0#4 ++ imm)
  | .slti xd xa imm => some (1, 7#4 ++ xd ++ xa ++ imm)
  | .sltui xd xa imm => some (1, 8#4 ++ xd ++ xa ++ imm)
  | .muli xd xa imm => some (1, 9#4 ++ xd ++ xa ++ imm)
  | .lui xd imm => some (2, 0#1 ++ xd ++ imm)
  | .auipc xd imm => some (2, 1#1 ++ xd ++ imm)
  | .beq xa xb off => some (3, 0#3 ++ xa ++ xb ++ off)
  | .bne xa xb off => some (3, 1#3 ++ xa ++ xb ++ off)
  | .blt xa xb off => some (3, 2#3 ++ xa ++ xb ++ off)
  | .bge xa xb off => some (3, 3#3 ++ xa ++ xb ++ off)
  | .bltu xa xb off => some (3, 4#3 ++ xa ++ xb ++ off)
  | .bgeu xa xb off => some (3, 5#3 ++ xa ++ xb ++ off)
  | .bp pn off => some (3, 24#5 ++ pn ++ 0#5 ++ off)
  | .bnp pn off => some (3, 28#5 ++ pn ++ 0#5 ++ off)
  | .j off => some (4, 0#7 ++ off)
  | .jal x off => some (4, 1#2 ++ x ++ off)
  | .jr x off => some (4, 2#2 ++ x ++ off)
  | .jalr x off => some (4, 3#2 ++ x ++ off)
  | .loop lvl xc len => some (5, 0#2 ++ lvl ++ xc ++ len ++ 0#7)
  | .ldelta lvl target imm => some (5, 1#2 ++ lvl ++ target.code ++ imm)
  | .lbrk lvl => some (5, 2#2 ++ lvl ++ 0#20)
  | .lclr lvl => some (5, 3#2 ++ lvl ++ 0#20)
  | .movxa ar xs => some (6, 0#6 ++ ar ++ xs ++ 0#9)
  | .movax xd ar => some (6, 1#6 ++ xd ++ ar ++ 0#9)
  | .movxc cr xs => some (6, 2#6 ++ cr ++ xs ++ 0#11)
  | .movcx xd cr => some (6, 3#6 ++ xd ++ cr ++ 0#11)
  | .pset pd xa => some (6, 4#6 ++ pd ++ xa ++ 0#10)
  | .pand pd pa pb => some (6, 5#6 ++ pd ++ pa ++ pb ++ 0#9)
  | .por pd pa pb => some (6, 6#6 ++ pd ++ pa ++ pb ++ 0#9)
  | .pxor pd pa pb => some (6, 7#6 ++ pd ++ pa ++ pb ++ 0#9)
  | .pnot pd pa => some (6, 8#6 ++ pd ++ pa ++ 0#12)
  | .rdctl xd n => some (6, 9#6 ++ xd ++ n ++ 0#4)
  | .wrctl xs n => some (6, 10#6 ++ xs ++ n ++ 0#4)
  | .rdcyc xd => some (6, 11#6 ++ xd ++ 0#13)
  | .sel xd xa xb pn => some (6, 12#6 ++ xd ++ xa ++ xb ++ pn)
  | .nop => some (7, 0#24)
  | .halt => some (7, 262144#24)
  | .trap imm => some (7, 8#8 ++ imm)
  | .rfe => some (7, 786432#24)
  | .sleepu xs => some (7, 4#6 ++ xs ++ 0#13)
  | .fence scope => some (7, 5#6 ++ scope.code ++ 0#15)
  | .opsel point => some (7, 6#6 ++ point ++ 0#15)
  | .klaunch xd ar => some (7, 7#6 ++ xd ++ ar ++ 0#9)
  | .yield => some (7, 2097152#24)
  | .brk imm => some (7, 36#8 ++ imm)
  | .waitw xs => some (7, 10#6 ++ xs ++ 0#13)
  | .accrd xd cause => some (7, 11#6 ++ xd ++ cause ++ 0#9)
  | .vadd vd va vb => some (8, vd ++ va ++ vb ++ 0#6)
  | .vsub vd va vb => some (8, vd ++ va ++ vb ++ 1#6)
  | .vmul vd va vb => some (8, vd ++ va ++ vb ++ 2#6)
  | .vfma vd va vb => some (8, vd ++ va ++ vb ++ 3#6)
  | .vmin vd va vb => some (8, vd ++ va ++ vb ++ 4#6)
  | .vmax vd va vb => some (8, vd ++ va ++ vb ++ 5#6)
  | .vand vd va vb => some (8, vd ++ va ++ vb ++ 6#6)
  | .vor vd va vb => some (8, vd ++ va ++ vb ++ 7#6)
  | .vxor vd va vb => some (8, vd ++ va ++ vb ++ 8#6)
  | .vshl vd va vb => some (8, vd ++ va ++ vb ++ 9#6)
  | .vshr vd va vb => some (8, vd ++ va ++ vb ++ 10#6)
  | .vsel vd va vb => some (8, vd ++ va ++ vb ++ 11#6)
  | .vcmpeq vd va vb => some (8, vd ++ va ++ vb ++ 12#6)
  | .vcmplt vd va vb => some (8, vd ++ va ++ vb ++ 13#6)
  | .vcmple vd va vb => some (8, vd ++ va ++ vb ++ 14#6)
  | .vabsd vd va vb => some (8, vd ++ va ++ vb ++ 15#6)
  | .vadds vd va xb => some (9, vd ++ va ++ xb ++ 0#7)
  | .vmuls vd va xb => some (9, vd ++ va ++ xb ++ 8#7)
  | .vfmas vd va xb => some (9, vd ++ va ++ xb ++ 16#7)
  | .vmins vd va xb => some (9, vd ++ va ++ xb ++ 24#7)
  | .vmaxs vd va xb => some (9, vd ++ va ++ xb ++ 32#7)
  | .vsplat vd xb => some (9, vd ++ 0#6 ++ xb ++ 40#7)
  | .vcvt vd va ty rnd => some (10, vd ++ va ++ ty.code ++ rnd.code ++ 0#6)
  | .vmaxexp va ty => some (10, 0#6 ++ va ++ ty.code ++ 1#8)
  | .vqnt vd va ty => some (10, vd ++ va ++ ty.code ++ 2#8)
  | .vdqnt vd va ty => some (10, vd ++ va ++ ty.code ++ 3#8)
  | .vrnd vd va rnd => some (10, vd ++ va ++ 0#4 ++ rnd.code ++ 4#6)
  | .vrsum vd va => some (11, vd ++ va ++ 0#12)
  | .vrmax vd va => some (11, vd ++ va ++ 1#12)
  | .vrmin vd va => some (11, vd ++ va ++ 2#12)
  | .vramax vd va => some (11, vd ++ va ++ 3#12)
  | .vperm vd va vb => some (11, vd ++ va ++ vb ++ 4#6)
  | .vext xd va xb => some (11, 0#1 ++ xd ++ va ++ xb ++ 5#7)
  | .vins vd xs xb => some (11, vd ++ xs ++ xb ++ 6#8)
  | .viota vd => some (11, vd ++ 7#18)
  | .vcompr vd va vb => some (11, vd ++ va ++ vb ++ 8#6)
  | .tcfg t ty rows keep tent => some (12, t ++ ty.code ++ rows ++ keep ++ tent ++ 0#8)
  | .tzero t => some (12, t ++ 1#20)
  | .tmov td ts => some (12, td ++ ts ++ 2#16)
  | .ttag t cr xd => some (12, t ++ cr ++ xd ++ 3#13)
  | .vld v ar imm => some (13, v ++ ar ++ imm ++ 0#4)
  | .vst v ar imm => some (13, v ++ ar ++ imm ++ 4#4)
  | .vlde ar imm => some (13, 0#6 ++ ar ++ imm ++ 8#4)
  | .vste ar imm => some (13, 0#6 ++ ar ++ imm ++ 12#4)
  | .frcp vd va => some (14, vd ++ va ++ 0#12)
  | .frsq vd va => some (14, vd ++ va ++ 512#12)
  | .fsqrt vd va => some (14, vd ++ va ++ 1024#12)
  | .fexp2 vd va => some (14, vd ++ va ++ 1536#12)
  | .flog2 vd va => some (14, vd ++ va ++ 2048#12)
  | .fexpt vd va => some (14, vd ++ va ++ 2560#12)
  | .ftanh vd va => some (14, vd ++ va ++ 3072#12)
  | .fsigm vd va => some (14, vd ++ va ++ 3584#12)
  | .gtopk vd va km1 => some (15, vd ++ va ++ km1 ++ 0#9)
  | .gsmax vd va km1 => some (15, vd ++ va ++ km1 ++ 1#9)
  | .ghist vd va => some (15, vd ++ va ++ 2#12)
  | .mma tacc ta db kout kin => some (16, tacc ++ ta ++ db ++ kout ++ kin ++ 0#2)
  | .mmaz tacc ta db kout kin => some (16, tacc ++ ta ++ db ++ kout ++ kin ++ 1#2)
  | .mmat tacc ta db kout kin => some (16, tacc ++ ta ++ db ++ kout ++ kin ++ 2#2)
  | .mmag tacc vidx db kout kin => some (17, tacc ++ vidx ++ db ++ kout ++ kin)
  | .mgset dg xs kout kin => some (18, 0#2 ++ dg ++ xs ++ 0#1 ++ kout ++ kin ++ 0#2)
  | .mdrain kout kin => some (18, 4096#14 ++ kout ++ kin ++ 0#2)
  | .resolve tdst ttent vroute xd => some (19, tdst ++ ttent ++ vroute ++ xd ++ 0#5)
  | .tcommit tdst ttent => some (19, tdst ++ ttent ++ 1#16)
  | .tsquash ttent => some (19, 0#4 ++ ttent ++ 2#16)
  | .rlist xd => some (19, 0#14 ++ xd ++ 3#5)
  | .ldbu cls xd ar imm => some (20, cls ++ 0#3 ++ xd ++ ar ++ imm)
  | .ldb cls xd ar imm => some (20, cls ++ 1#3 ++ xd ++ ar ++ imm)
  | .ldhu cls xd ar imm => some (20, cls ++ 2#3 ++ xd ++ ar ++ imm)
  | .ldh cls xd ar imm => some (20, cls ++ 3#3 ++ xd ++ ar ++ imm)
  | .ldwu cls xd ar imm => some (20, cls ++ 4#3 ++ xd ++ ar ++ imm)
  | .ldw cls xd ar imm => some (20, cls ++ 5#3 ++ xd ++ ar ++ imm)
  | .ldd cls xd ar imm => some (20, cls ++ 6#3 ++ xd ++ ar ++ imm)
  | .stb cls xs ar imm => some (21, cls ++ 0#3 ++ xs ++ ar ++ imm)
  | .sth cls xs ar imm => some (21, cls ++ 2#3 ++ xs ++ ar ++ imm)
  | .stw cls xs ar imm => some (21, cls ++ 4#3 ++ xs ++ ar ++ imm)
  | .std cls xs ar imm => some (21, cls ++ 6#3 ++ xs ++ ar ++ imm)
  | .aadd scope xd ar xs dbl ord => some (22, scope.code ++ 0#3 ++ xd ++ ar ++ xs ++ 1#1 ++ dbl ++ ord)
  | .amax scope xd ar xs dbl ord => some (22, scope.code ++ 1#3 ++ xd ++ ar ++ xs ++ 1#1 ++ dbl ++ ord)
  | .amin scope xd ar xs dbl ord => some (22, scope.code ++ 2#3 ++ xd ++ ar ++ xs ++ 1#1 ++ dbl ++ ord)
  | .amaxu scope xd ar xs dbl ord => some (22, scope.code ++ 3#3 ++ xd ++ ar ++ xs ++ 1#1 ++ dbl ++ ord)
  | .axchg scope xd ar xs dbl ord => some (22, scope.code ++ 4#3 ++ xd ++ ar ++ xs ++ 1#1 ++ dbl ++ ord)
  | .acas scope xd ar xs dbl ord => some (22, scope.code ++ 5#3 ++ xd ++ ar ++ xs ++ 1#1 ++ dbl ++ ord)
  | .aand scope xd ar xs dbl ord => some (22, scope.code ++ 6#3 ++ xd ++ ar ++ xs ++ 1#1 ++ dbl ++ ord)
  | .aor scope xd ar xs dbl ord => some (22, scope.code ++ 7#3 ++ xd ++ ar ++ xs ++ 1#1 ++ dbl ++ ord)
  | .cpy dsrc ddst kout kin => some (23, dsrc ++ ddst ++ kout ++ kin ++ 0#4)
  | .cpycv dsrc ddst kout kin => some (23, dsrc ++ ddst ++ kout ++ kin ++ 1#4)
  | .cpyz dsrc ddst kout kin => some (23, dsrc ++ ddst ++ kout ++ kin ++ 2#4)
  | .cpyl2 dsrc ddst kout kin => some (23, dsrc ++ ddst ++ kout ++ kin ++ 3#4)
  | .cpypf dsrc kout kin => some (23, dsrc ++ 0#6 ++ kout ++ kin ++ 4#4)
  | .cpywb dsrc kout kin => some (23, dsrc ++ 0#6 ++ kout ++ kin ++ 5#4)
  | .tkwait k => some (24, 0#4 ++ k ++ 0#16)
  | .tktest k xd => some (24, 1#4 ++ k ++ xd ++ 0#11)
  | .tkjoin kd ka kb kc => some (24, 2#4 ++ kd ++ ka ++ kb ++ kc ++ 0#4)
  | .tkprom k xd => some (24, 3#4 ++ k ++ xd ++ 0#11)
  | .tkset kd refused => some (24, 4#4 ++ kd ++ 0#1 ++ refused ++ 0#14)
  | .probe dl kout kin => some (24, 5#4 ++ dl ++ kout ++ kin ++ 0#6)
  | .probew dl kout kin => some (24, 6#4 ++ dl ++ kout ++ kin ++ 0#6)
  | .bar scope xs kout kin => some (25, 0#4 ++ scope.code ++ xs ++ 0#4 ++ kout ++ kin)
  | .barba n xs => some (25, 1#4 ++ n ++ xs ++ 0#11)
  | .barbw n kout kin => some (25, 2#4 ++ n ++ 0#8 ++ kout ++ kin)
  | .rtick ring xd => some (25, 3#4 ++ ring ++ xd ++ 0#7)
  | .rfill ring xs ar => some (25, 4#4 ++ ring ++ xs ++ ar ++ 0#3)
  | .rtake ring xd => some (25, 5#4 ++ ring ++ xd ++ 0#7)
  | .rwait ring kout kin => some (25, 6#4 ++ ring ++ 0#4 ++ kout ++ kin)
  | .pqpush xk xv => some (25, 7#4 ++ xk ++ xv ++ 0#10)
  | .pqpop xd => some (25, 8#4 ++ xd ++ 0#15)
  | .send dl xs kout kin => some (26, 0#4 ++ dl ++ xs ++ 0#1 ++ kout ++ kin)
  | .sendQ dl xs kout kin => some (26, 0#4 ++ dl ++ xs ++ 1#1 ++ kout ++ kin)
  | .sendr dl xs kout kin => some (26, 1#4 ++ dl ++ xs ++ 0#1 ++ kout ++ kin)
  | .recv dl xs kout kin => some (26, 2#4 ++ dl ++ xs ++ 0#1 ++ kout ++ kin)
  | .recvq xd xs => some (26, 3#4 ++ xd ++ xs ++ 0#10)
  | .gretire xs => some (26, 256#10 ++ xs ++ 0#9)
  | .sendG dl xs kout kin => some (26, 5#4 ++ dl ++ xs ++ 0#1 ++ kout ++ kin)
  | .plook xd xa => some (27, 0#4 ++ xd ++ xa ++ 0#10)
  | .ptrain xa xb => some (27, 32#9 ++ xa ++ xb ++ 0#5)
  | .pclr => some (27, 2097152#24)
  | .pcfg xa => some (27, 96#9 ++ xa ++ 0#10)
  | .sjoin xd => some (28, 0#4 ++ xd ++ 0#15)
  | .spub dl kout kin => some (28, 1#4 ++ dl ++ 0#6 ++ kout ++ kin)
  | .scons dl kout kin => some (28, 2#4 ++ dl ++ 0#6 ++ kout ++ kin)
  | .packageReset => none
  | .hostLinkTraining _ _ _ => none
  | .doorbell _ _ => none
  | .lqcfgWrite _ _ => none
  | .bar0RegisterWrite _ _ => none
  | .nopCommand _ => none
  | .ctxCreate _ => none
  | .ctxDestroy _ => none
  | .imgLoad _ => none
  | .imgUnload _ => none
  | .launch _ => none
  | .pipeBind _ => none
  | .attest _ => none
  | .priorityAging _ => none
  | .kernelPlacement => none
  | .quantumExpiry _ => none
  | .preemptionPoint _ => none
  | .saveComplete _ => none
  | .placementEnd _ => none
  | .restoreComplete _ => none
  | .kernelRetire _ => none
  | .finalAccounts _ => none
  | .abacusFlush _ => none
  | .acsEnable _ => none
  | .acsDisable _ => none
  | .chargeRunClose _ => none
  | .windowEnd _ => none
  | .fillerBundle _ => none
  | .stallBundle _ => none
  | .opChangeBegin _ => none
  | .rampEnd _ => none
  | .relockEnd _ => none
  | .permitSpent _ => none
  | .permitEarned _ => none
  | .boostFallSecondStep _ => none
  | .poolClaim _ => none
  | .poolGrant _ => none
  | .poolWithdraw _ => none
  | .powerSample _ => none
  | .thermalReading _ _ => none
  | .thermalDwellEnd _ => none
  | .clockGate _ => none
  | .railGate _ => none
  | .quiesceEnd _ => none
  | .saveStateEnd _ => none
  | .holdEnd _ => none
  | .railDownEnd _ => none
  | .wake _ => none
  | .inrushAdmit _ => none
  | .inrushRampEnd _ => none
  | .wakeRestoreEnd _ => none
  | .fetchFill _ => none
  | .loadReturn _ _ => none
  | .storePerform _ _ => none
  | .copyAccept _ _ => none
  | .copyComplete _ _ => none
  | .promiseMissed _ _ => none
  | .stagingResize _ _ => none
  | .stagingResizeComplete _ => none
  | .sync _ => none
  | .clear _ => none
  | .syncComplete => none
  | .probeAccept _ => none
  | .probeFault _ => none
  | .probeComplete _ => none
  | .matrixOpStart _ => none
  | .matrixOpComplete _ => none
  | .specComplete _ => none
  | .barrierArrival _ _ => none
  | .ticketGrant _ => none
  | .sleepEnd _ => none
  | .waitwEnd _ => none
  | .klaunchAccept _ => none
  | .stageElementLanded _ _ => none
  | .elementPublished _ => none
  | .channelBind _ _ _ => none
  | .channelUnbind _ _ => none
  | .creditGrant _ _ => none
  | .sendAccept _ _ => none
  | .messageArrival _ _ _ => none
  | .markerArrival _ _ _ => none
  | .recvPosted _ _ => none
  | .recvAccept _ _ => none
  | .recvComplete _ _ => none
  | .contributionArrival _ _ => none
  | .reductionTimeout _ => none
  | .sendrAnswer _ _ => none
  | .remoteErrorReport _ _ => none
  | .gatecfgWrite _ _ => none
  | .gateLoad _ _ => none
  | .gateLoadComplete _ => none
  | .trapEntry _ => none
  | .watchdog _ => none
  | .tendWrite _ _ => none
  | .pet _ => none
  | .debugHalt _ => none
  | .debugStep _ => none
  | .debugResume _ => none
  | .debugSnap _ => none
  | .debugLoad _ => none
  | .patrolScrub _ => none
  | .pageRetirement _ => none
  | .wayQuarantine _ _ => none
  | .errinjWrite _ => none
  | .sendComplete _ _ => none
  | .atomicReturn _ _ => none
  | .reservedCommand _ => none
  | .fabricReset => none
  | .engineUnmappedPage _ _ => none
  | .engineErrorDetection _ _ _ => none

/-- The word of a slot instruction with its stop bit and weight (Table 7-1). -/
def encodeSlot (stop : Bool) (weight : BitVec 2) (i : Instr) : Option (BitVec 32) :=
  (encodeBody i).map fun mb => bit stop ++ weight ++ mb.1 ++ mb.2

/-- The words of a well-formed instruction, ending its bundle with weight 0: one word for a slot, none for a step. -/
def encode (i : Instr) : List (BitVec 32) := (encodeSlot true 0#2 i).toList

end Sys2Proof
end

