-- ==== Sys2Proof/Config.lean ====
section
/-!
DEFINITION. What the spec leaves to the implementation, the firmware or chance. Every constant here has no body, so no
proof can know its value: a claim about the machine holds for every choice.
-/
/-- What a release of reset finds outside the part: the domain number and the members of the domain of the boot configuration, the
firmware, and its signature (R21, R314). -/
structure Sys2Proof.Boot where
  dom : BitVec 4 := 0
  members : BitVec 16 := 0
  fw : List Byte := []
  sig : List Byte := []
  deriving DecidableEq, Repr, Inhabited

namespace Sys2Proof.Config

/-- What each release of reset finds, by number (log 4). -/
opaque boot : Nat → Boot
/-- Stepping B1 rather than B0 (R1, log 6). -/
opaque stepping : Bool
/-- Local DRAM offset at which the boot firmware maps the firmware window (R376, log 7). -/
opaque fwBase : Nat
/-- The firmware's trusted key list: the public key of a signer key index, where it is listed (R47, log 8). -/
opaque trustedKey : BitVec 64 → Option (List Byte)
/-- The public key by which the boot ROM checks the firmware (R21, log 8). -/
opaque bootKey : List Byte
/-- The bytes that stand before a digest in the message that is signed (R21, R46, log 10). -/
opaque signFrame : List Byte
/-- The ML-DSA-65 signature of a report under the device identity key (R22, R49, log 10). -/
opaque sign : List Byte → Vector Byte 3309
/-- The package's serial number, as attestation reports hold it (R49, log 10). -/
opaque serial : List Byte
/-- A read before the bound of a result in flight: does it see the new value (R125, log 11)? The arguments are the core,
its cycle, the slot, the result's number and the part of the register read. -/
opaque seesEarly : Nat → Nat → Nat → Nat → Nat → Bool
/-- The result of a special function within its bound, by function code and input (R187, log 12). -/
opaque sfu : Nat → BitVec 32 → BitVec 32
/-- Bytes of the device code region, which holds the loaded images (R47, log 15). -/
opaque codeRegion : Nat
/-- A free word, by number (log 3). -/
opaque freeWord : Nat → BitVec 64
/-- A free choice, by number (log 3); the model reduces it to the choices the spec allows. -/
opaque choice : Nat → Nat
/-- A free choice that depends on when and where: the kind of choice, the tick, and the place (log 3). -/
opaque choiceAt : Nat → Nat → Nat → Nat

end Sys2Proof.Config
end

