-- ==== Sys2Proof/Machine/Flags.lean ====
section
/-!
DEFINITION. The sticky flags of Table 2-8 and the flags that a rounding, a saturation or a trap of numbers raises
(R25, R27, R29, R36, R42). A set of flags has the layout of FPFLAGS bits[5:0].
-/
namespace Sys2Proof.Machine

/-- A set of flags, laid out as FPFLAGS bits[5:0] (Table 2-8). -/
abbrev Flags := BitVec 6

/-- An invalid operation, or a NaN converted to an integer (R42). -/
def flagNV : Flags := 0b000001#6
/-- Division by zero (R42). -/
def flagDZ : Flags := 0b000010#6
/-- A result overflowed its type (R42). -/
def flagOF : Flags := 0b000100#6
/-- A result was tiny and inexact, or FRCP flushed a result (R42). -/
def flagUF : Flags := 0b001000#6
/-- A rounded result differed from the exact value (R42). -/
def flagNX : Flags := 0b010000#6
/-- An integer or DB result was clamped (R42). -/
def flagSAT : Flags := 0b100000#6

/-- `f` when `b` holds, else no flag. -/
def flagIf (b : Bool) (f : Flags) : Flags := if b then f else 0

/-- The flags of one rounding (R29): overflow raises OF and NX; an inexact result NX; an inexact tiny result UF. -/
def roundFlags (inexact overflow tiny : Bool) : Flags :=
  flagIf overflow (flagOF ||| flagNX) ||| flagIf inexact flagNX ||| flagIf (inexact && tiny) flagUF

/-- The union of the flags of a list of results. -/
def flagsAll (l : List Flags) : Flags := l.foldl (· ||| ·) 0

end Sys2Proof.Machine
end

