-- ==== Sys2Proof/Machine/State.lean ====
section
/-!
DEFINITION. The state of one package: every piece of state the spec names, as plain data, and the state after reset.
Times called "tick" count the reference ticks of R4; `now` and the clock edges of rods count sub-ticks, 360 to a tick,
so that the period of every operating point of Table 12-1 is a whole number (log 2).
Every field's value after reset is its default below.
-/
namespace Sys2Proof.Machine

/-- Byte-addressed memory in canonical form (log 9): addresses strictly rising, no entry holding 0, which is what an
unlisted address reads as. -/
abbrev Mem := List Host.Cell

/-! ### The architectural state of a core -/

/-- A row tag (R166). -/
structure Tag where
  token : BitVec 12 := 0
  expert : BitVec 8 := 0
  gen : BitVec 8 := 0
  valid : Bool := false
  deriving DecidableEq, Repr, Inhabited

/-- A tile with its configuration (R166). An unconfigured tile has 64 rows, and its `ty` is not read. -/
structure Tile where
  conf : Bool := false
  ty : ElemTy := .int8
  nrows : Nat := 64
  tent : Bool := false
  tags : Vector Tag 64 := Vector.replicate 64 {}
  rows : Vector Row 64 := Vector.replicate 64 0
  deriving DecidableEq, Repr, Inhabited

/-- A token register: the operations it stands for (R138, R298), and, when it stands for none, the state and tick that
TKSET or placement gave it (R299, R69). -/
structure Tok where
  join : Bool := false
  ops : List Nat := []
  refused : Bool := false
  tick : Nat := 0
  top : Nat := 0
  deriving DecidableEq, Repr, Inhabited

/-- State of an engine operation as its token shows it (R297). -/
inductive OpState where
  | unpromised | promised | complete | refused
  deriving DecidableEq, Repr, Inhabited

/-- What kind of engine an operation belongs to, for the charging of Table 11-2. -/
inductive OpClass where
  | barrier | recv | other
  deriving DecidableEq, Repr, Inhabited

/-- An engine operation as tokens see it (R138, R257, R258, R297). -/
structure TokOp where
  id : Nat
  cls : OpClass
  st : OpState := .unpromised
  promise : Option Nat := none
  doneTick : Nat := 0
  status : BitVec 16 := 0
  missRaised : Bool := false
  deriving DecidableEq, Repr, Inhabited

/-- One level of the hardware loop buffer (R147): `start` is the body's first bundle, `last` its last, `after` the word
after it. `deltas` has the 20 targets, a0 to a15 and then c0 to c3. -/
structure LoopLvl where
  isOpen : Bool := false
  rem : Nat := 0
  start : Word := 0
  last : Word := 0
  after : Word := 0
  deltas : Vector (BitVec 64) 20 := Vector.replicate 20 0
  deriving DecidableEq, Repr, Inhabited

/-- What a result in flight will write (R124 to R126). Masks have the written bits set; `recfg` marks the result of TCFG (R167). -/
inductive PendVal where
  | x (r : BitVec 5) (v : Word)
  | row (t : BitVec 4) (r : Nat) (mask v : Row)
  | tile (t : BitVec 4) (v : Tile) (keepRows recfg : Bool)
  | sl (mask v : BitVec 256)
  | flags (f : BitVec 6) (exact : Bool)
  deriving DecidableEq, Repr, Inhabited

/-- A result in flight: it has landed by the core cycle `due`. `hist` marks a GHIST row, which a later GHIST of the same row
always sees (R346). -/
structure Pend where
  uid : Nat
  due : Nat
  val : PendVal
  hist : Bool := false
  deriving DecidableEq, Repr, Inhabited

/-- The abacus charge stream registers and its open run (R223 to R225). -/
structure Acs where
  base : BitVec 64 := 0
  en : Bool := false
  err : Bool := false
  log2n : BitVec 5 := 0
  dropped : Nat := 0
  tail : BitVec 32 := 0
  runPc : BitVec 64 := 0
  runCause : Nat := 0
  runCount : Nat := 0
  gap : Nat := 0
  deriving DecidableEq, Repr, Inhabited

/-- Context-saved control registers that are plain values. -/
structure Ctl where
  fpflags : BitVec 6 := 0
  ftidx : BitVec 8 := 0
  ringsel : BitVec 8 := 0
  pqEmpty : Bool := false
  pqRefused : Bool := false
  predcfg : BitVec 64 := 0
  errstat : BitVec 64 := 0
  tepc : BitVec 64 := 0
  tcause : BitVec 64 := 0
  tdetail : BitVec 64 := 0
  tsv : Vector (BitVec 64) 4 := Vector.replicate 4 0
  pfinfo : BitVec 64 := 0
  pfcoord : BitVec 64 := 0
  pfrem : BitVec 64 := 0
  pfia : BitVec 64 := 0
  mcfg : BitVec 64 := 0
  deriving DecidableEq, Repr, Inhabited

/-- A byte barrier (R303): a signed counter of 49 bits and its ARMED bit. -/
structure ByteBar where
  c : Int := 0
  armed : Bool := false
  deriving DecidableEq, Repr, Inhabited

/-- The architectural state of a core (Table 7-3), with its results in flight. `opNext` is a request of OPSEL that is in
force from the next cycle (R160). -/
structure Arch where
  pc : Word := 0
  x : Vector Word 32 := Vector.replicate 32 0
  a : Vector Word 16 := Vector.replicate 16 0
  c : Vector (BitVec 6) 4 := Vector.replicate 4 0
  p : Vector Bool 8 := Vector.replicate 8 false
  tiles : Vector Tile 16 := Vector.replicate 16 {}
  toks : Vector Tok 16 := Vector.replicate 16 {}
  sl : BitVec 256 := 0
  loops : Vector LoopLvl 4 := Vector.replicate 4 {}
  ctl : Ctl := {}
  priv : Bool := false
  opReq : Nat := 5
  opNext : Option Nat := none
  ops : List TokOp := []
  bbars : Vector ByteBar 16 := Vector.replicate 16 {}
  pend : List Pend := []
  deriving DecidableEq, Repr, Inhabited

/-! ### The engines of a core -/

/-- Where an access lands: a byte of this package's DRAM by its package offset, with its intermediate address and a mark
for the firmware window; a byte of another package; a byte of a loaded image's code section; or a byte of the latency
table (R48, R248, R262, R376). -/
inductive Loc where
  | dram (o ia : Nat) (fw : Bool)
  | remote (ia : Nat)
  | code (addr : Nat)
  | table (off : Nat)
  deriving DecidableEq, Repr, Inhabited

/-- What a memory operation does: an atomic has its function, whether it waits for what a fence would (R284), and the
compare value of ACAS. `later` is a row of the scratchpad or an operation on a ring or queue that waits for its place in the order, as
its instruction with the values it read at its issue. -/
inductive MemKind where
  | load (signed : Bool)
  | store
  | atomic (op : Nat) (cmp : BitVec 64)
  | later (i : Instr) (v w : BitVec 64) (row : Row)
  deriving DecidableEq, Repr, Inhabited

/-- A load, store or atomic that has been issued and is not yet finished (R243, R250, R280, R300). `performed` says that
it has its place in the order; `due` is the tick at which it lands or reaches its home slice; `dueCyc` the core cycle,
for an L1 hit; `back` the tick before which an atomic's value is not back; `waits` the engine operations a release waits for, and `acq`
that it is an acquire (R284); `poison` that it read lost data; `mc` the MACHINE_CHECK of an error that it found, raised as its result
lands (R392). `gate` is the number from which on every access of the core is kept behind it whatever its class, and `egate` that from
which on every engine operation is, because something that was carried out ahead of it is kept between them (R278). -/
structure MemOp where
  id : Nat
  kind : MemKind
  cls : Nat
  loc : Loc
  n : Nat
  xd : BitVec 5 := 0
  data : BitVec 64 := 0
  performed : Bool := false
  due : Nat := 0
  dueCyc : Nat := 0
  waits : List Nat := []
  acq : Bool := false
  back : Nat := 0
  gate : Option Nat := none
  egate : Option Nat := none
  poison : Bool := false
  mc : List (Nat × BitVec 64) := []
  deriving DecidableEq, Repr, Inhabited

/-- A register held by an interlock (R127); `held` says that its value is known, as the result in flight with this number. -/
structure Interlock where
  id : Nat
  xd : BitVec 5
  mclass : Bool
  held : Bool := false
  deriving DecidableEq, Repr, Inhabited

/-- A matrix operation (R191). -/
inductive MKind where
  | mma (op : Nat) (tacc ta : BitVec 4) (db : BitVec 6)
  | mmag (tacc : BitVec 4) (vrow : Nat) (vt : BitVec 4) (db : BitVec 6)
  | mgset (d : BitVec 6) (x : Word)
  | mdrain
  deriving DecidableEq, Repr, Inhabited

/-- A matrix operation in the queue, not started (R191, R205). `left` is the tile of its left operand, or of its index row, as
its bundle found it: nothing but a slot of that bundle can write it before the operation starts (R116, R128). -/
structure MOp where
  id : Nat
  kind : MKind
  kin : Tok
  issued : Nat
  left : Tile := {}
  deriving DecidableEq, Repr, Inhabited

/-- A matrix operation that has started: the cycle it completes at, the operands it read at its start, the engine
configuration it runs under, and the scratchpads its granule reads may see (R199, R203). -/
structure MRun where
  id : Nat
  kind : MKind
  doneCyc : Nat
  cfg : BitVec 64
  acc : Tile := {}
  left : Tile := {}
  idx : Row := 0
  mismatch : Bool := false
  snaps : List Mem := []
  after : List Nat := []
  deriving DecidableEq, Repr, Inhabited

/-- A resolve-unit operation in progress (R359), which read its operands at its issue: the cycle it completes at, the
tiles it keeps busy, the rows of the destination tile, the rows of the tentative tile to clear, its register and flags. -/
structure SpecOp where
  id : Nat
  doneCyc : Nat
  tiles : List (BitVec 4)
  dst : Option (BitVec 4 × Vector Row 64) := none
  tent : Option (BitVec 4 × BitVec 64) := none
  out : Option (BitVec 5 × Word) := none
  flags : BitVec 6 := 0
  deriving DecidableEq, Repr, Inhabited

/-- Operations of the copy engine, fabric, barrier, ring and lacer units, as issued (R138), and the markers of GRETIRE that
wait behind sends (R327). -/
inductive EngKind where
  | copy (form : Nat) (src dst : BitVec 6)
  | bar (scope : Scope) (x : Word)
  | barbw (n : BitVec 4)
  | rwait (ring : BitVec 8)
  | send (quant gated : Bool) (d : BitVec 6) (x : Word)
  | sendr (d : BitVec 6) (x : Word)
  | recv (d : BitVec 6) (x : Word)
  | spub (d : BitVec 6)
  | scons (d : BitVec 6)
  | marker (x : Word)
  deriving DecidableEq, Repr, Inhabited

/-- A shared resource on which copies and sends reserve rate (Table 13-5, R322). -/
inductive Resv where
  | stack (s : Nat) | staging (s : Nat) | crossing (toDie : Nat) | engine (core : Nat) | port (p : Nat)
  deriving DecidableEq, Repr, Inhabited

/-- The lasts of an operation's sides, and the intermediate addresses of their exponent planes: of one with a single last, both are that
one. -/
structure Sides where
  src : BitVec 512
  dst : BitVec 512
  srcPlane : Option Nat
  dstPlane : Option Nat
  deriving DecidableEq, Repr, Inhabited

/-- An issued engine operation that is neither complete nor refused. `kout` is the token register it was issued under (R397); `resv`
lists its reservations as a resource with a rate in GB/s as numerator and denominator (R255). Before acceptance `aux` is the stage a send
or receive has reached (R320, R321, R323): 0 issued, 1 checked or posted, 2 credit requested; after it, the tick the operation completes
at, and `late` what an error adds to that (R256). `msg` is the message a RECV has taken, `landed` the elements of it that are written;
`lost` the slices and staging ways that were quarantined under the operation, whose bytes read zero in the end (R400); `sides` those of
an accepted operation whose stage has changed its owner since: they are the old owner's (R91). -/
structure EngOp where
  id : Nat
  kind : EngKind
  kin : Tok
  kout : BitVec 4 := 0
  accepted : Bool := false
  acceptTick : Nat := 0
  promise : Nat := 0
  resv : List (Resv × Nat × Nat) := []
  flags : BitVec 6 := 0
  aux : Nat := 0
  late : Nat := 0
  msg : Option Message := none
  landed : Nat := 0
  lost : List (Nat × Nat) := []
  sides : Option Sides := none
  deriving DecidableEq, Repr, Inhabited

/-- A probe (R269 to R273): whether it was issued in privileged mode, whether its checks have been passed, the pages its walk has
visited (`pos`), the tick at which the walk reaches the next, the tick and the page at which its present walk began, and whether it has
met a missing page. -/
structure Probe where
  id : Nat
  write : Bool
  d : BitVec 6
  kout : BitVec 4
  kin : Tok
  accepted : Bool := false
  pos : Nat := 0
  nextTick : Nat := 0
  since : Nat := 0
  first : Nat := 0
  cmd : BitVec 16 := 0
  priv : Bool := false
  begun : Bool := false
  faulted : Bool := false
  deriving DecidableEq, Repr, Inhabited

/-- A predictor slot and entry (R350). -/
structure PredSlot where
  expert : BitVec 8 := 0
  conf : BitVec 2 := 0
  deriving DecidableEq, Repr, Inhabited

/-- A group of the L1 (R243): the 512-byte block, and the valid and dirty bits of its four lines. -/
structure L1Group where
  blk : Nat
  valid : BitVec 4
  dirty : BitVec 4
  deriving DecidableEq, Repr, Inhabited

/-- The resolve state (R361): the marks, one bit for each routing row and entry (8 × row + entry), the tile and base they
belong to, and the missing list. -/
structure Resolve where
  owner : Option (BitVec 4 × Nat) := none
  marks : BitVec 512 := 0
  missing : List Tag := []
  deriving DecidableEq, Repr, Inhabited

/-- The engines of a core: memory operations of classes 1 to 7 not yet performed and accesses not yet finished (R250,
R280), interlocks (R127), the matrix engine (R191), the special-function unit (R186), the resolve unit (R359), copies,
fabric, barrier, ring and stage operations (R138), the rate that a save or restore holds (R379), and the probes, of which the first
walks, with those that a handler holds aside (R269, R272).
Cycles are the core's own. -/
structure Engines where
  memq : List MemOp := []
  ilk : List Interlock := []
  mq : List MOp := []
  mrun : List MRun := []
  arrayFree : Nat := 0
  sfuFree : Nat := 0
  vbusy : List (BitVec 4 × Nat) := []
  spec : Option SpecOp := none
  resolve : Resolve := {}
  eng : List EngOp := []
  moveResv : List (Resv × Nat × Nat) := []
  probes : List Probe := []
  aside : List Probe := []
  probeCmd : BitVec 16 := 0
  deriving DecidableEq, Repr, Inhabited

/-- A trap entry or RFE return sequence in progress (R373, R375): cycles left, and, for an entry, its class and detail. -/
inductive TrapSeq where
  | entry (left : Nat) (cls : Nat) (detail : BitVec 64)
  | ret (left : Nat)
  deriving DecidableEq, Repr, Inhabited

/-- Kinds of pre-emption (R378). -/
inductive PreKind where
  | save | transfer | stop
  deriving DecidableEq, Repr, Inhabited

/-- Where a core stands in a pre-emption or a restore (R379, R382). `landing` counts the cycles of R373 step 2;
`draining` waits for engines; `waitRate` waits for rate; `saving` and `loading` end at a tick; `saved` is finished; a `restored` core
waits for the others of its rod (R208). -/
inductive PrePhase where
  | running
  | requested (k : PreKind)
  | landing (k : PreKind) (left : Nat)
  | draining (k : PreKind)
  | waitRate (k : PreKind)
  | saving (k : PreKind) (till : Nat)
  | saved (k : PreKind)
  | loadRate
  | loading (till : Nat)
  | restored
  deriving DecidableEq, Repr, Inhabited

/-- A KLAUNCH at issue, by its slot, with the tick from which on its command is answered, the tick by which it is, and its result from
then on (R161). -/
structure KLaunchWait where
  slot : Nat
  va : Word
  till : Nat
  last : Nat
  result : Option Word := none
  deriving DecidableEq, Repr, Inhabited

/-- What holds or steers a core's issue. `next` is the word after the issuing bundle (R139) and `width` that bundle's slots; `fence` the
FENCEs in force, each by its scope and the operations before it, and `heldFence` those a trap entry held aside, for the operations below
`heldTo`; `walk` the cycles left of a LOOP's walk (R148); `fill` the line of code being fetched with the tick it arrives at; `heldReq` a
saved operating point request that the first issue puts back (R229); `preAfter` that a pre-emption was pending or requested during a
handler or its entry or return, and is taken at the boundary after that (R374, Table 20-9); `pubStop` the SPUB at whose boundary its stage
retires or changes its owner, which is published before that is requested (R90, R91). -/
structure Seq where
  next : Word := 0
  width : Nat := 0
  redirected : Bool := false
  bundleDeltas : List (Nat × Nat) := []
  sleepTo : Option Nat := none
  heldSleep : Option Nat := none
  waitw : Option Nat := none
  wakeFlag : Bool := false
  fence : List (Scope × Nat) := []
  heldFence : List (Scope × Nat) := []
  heldTo : Nat := 0
  klaunch : List KLaunchWait := []
  walk : Nat := 0
  ticketWait : List (Nat × BitVec 8 × BitVec 5) := []
  promWait : List (BitVec 5 × Tok) := []
  trapSeq : Option TrapSeq := none
  heldLoops : Vector LoopLvl 4 := Vector.replicate 4 {}
  pendTraps : List (Nat × BitVec 64) := []
  pre : PrePhase := .running
  preAfter : Bool := false
  heldReq : Option Nat := none
  fill : Option (Nat × Nat) := none
  pubStop : Option (Nat × PreKind) := none
  deriving DecidableEq, Repr, Inhabited

/-- The core's place in its kernel (R55, R69, R78): launch index, loop record, section (0 prologue, 1 kernel section,
2 epilogue), kernel iterations left, cycles spent in the section or iteration, whether these have passed their bound, and
whether every work unit has ended. `starting` says that the next record starts once the FENCEs and rows of HALT's bundle are done, as its
trip count is read then (R55). -/
structure WorkUnit where
  kernel : Option Nat := none
  idx : Nat := 0
  record : Nat := 0
  sec : Nat := 0
  iters : Nat := 0
  secCyc : Nat := 0
  overrun : Bool := false
  started : Bool := false
  starting : Bool := false
  ended : Bool := true
  haltPc : Word := 0
  wdog : Nat := 0
  deriving DecidableEq, Repr, Inhabited

/-- The abacus of a core (R220) and its charge stream. -/
structure Acct where
  live : Vector Nat 16 := Vector.replicate 16 0
  held : Nat := 0
  acs : Acs := {}
  deriving DecidableEq, Repr, Inhabited

/-- DBGCTL of a core (Table 20-12): ATTACH, HALTED and WHY; the reason of a halt that is still to come, 0 for none; whether
that halt waits for unprivileged mode (Table 20-13); and a STEP whose bundle has not issued. -/
structure Dbg where
  attach : Bool := false
  halted : Bool := false
  why : Nat := 0
  pend : Nat := 0
  later : Bool := false
  step : Bool := false
  deriving DecidableEq, Repr, Inhabited

/-- One core. `predBad` lists the predictor entries whose parity will fail when they are read (R391), and `flaw` says that a word of
the core's arrays holds an error that its next save finds: a correctable one, or one that is not (R381, log 31). `latch` is the
architectural state as it stood before the issuing bundle (R116); `cyc` is the cycle counter of R153; `tvec` its TVEC (R377, Table
22-4); `uid` numbers results and operations; `view` counts the writes to memory that its reads have seen (R279); `l1Wait` holds the
addresses whose groups wait in the L1 for a dirty group to leave (R243). -/
structure Core where
  arch : Arch := {}
  latch : Arch := {}
  spad : Mem := []
  l1kb : Nat := 0
  l1 : List L1Group := []
  pred : Vector (PredSlot × PredSlot) 4096 := Vector.replicate 4096 ({}, {})
  predBad : List Nat := []
  flaw : Option Bool := none
  eng : Engines := {}
  seq : Seq := {}
  unit : WorkUnit := {}
  acct : Acct := {}
  dbg : Dbg := {}
  cyc : Nat := 0
  tvec : BitVec 64 := 0
  uid : Nat := 0
  view : Nat := 0
  l1Wait : List Nat := []
  deriving DecidableEq, Repr, Inhabited

/-! ### Rods, panels and dies -/

/-- An owner tag of an L2 line (R387). -/
structure Owner where
  remote : Bool := false
  dom : BitVec 4 := 0
  asid : Nat := 0
  fw : Bool := false
  deriving DecidableEq, Repr, Inhabited

/-- A line held by a memory-side cache (R244): the DRAM line it holds, its way, whether it is dirty, its tag, and the intermediate
address by which it was fetched (R274). -/
structure L2Line where
  line : Nat
  way : Nat
  dirty : Bool := false
  poison : Bool := false
  tag : Option Owner := none
  ia : Nat := 0
  deriving DecidableEq, Repr, Inhabited

/-- Rod power states (Table 12-10). -/
inductive RodPower where
  | on | quiesce | save | clockGated | hold | railDown | railGated | waking
  deriving DecidableEq, Repr, Inhabited

/-- A change of operating point (R227): a ramp, or a relock, towards `dest`, with its start and end ticks. -/
structure PointChange where
  relock : Bool
  dest : Nat
  start : Nat
  till : Nat
  deriving DecidableEq, Repr, Inhabited

/-- The clock and balance of a rod (R212 to R216, R226 to R229). `turn` says where the
present cycle stands: 5, it has begun; 0 to 3, so many of the rod's cores have had their turn; 4, it is over and the next
begins at `nextEdge`. -/
structure RodClock where
  point : Nat := 5
  change : Option PointChange := none
  nextEdge : Nat := 0
  turn : Nat := 4
  fill : Vector Bool 4 := Vector.replicate 4 false
  total : Nat := 0
  adds : Vector Nat 4 := Vector.replicate 4 0
  window : Nat := 0
  wcyc : Nat := 0
  sums : Vector Nat 4 := Vector.replicate 4 0
  lastImb : Nat := 0
  overrun : Nat := 0
  throt : Bool := false
  grant : Nat := 6144
  grantNext : Option Nat := none
  deriving DecidableEq, Repr, Inhabited

/-- The power management of a rod (R239, R240): its state and, for a timed one, the tick it ends at; whether RAIL_GATE was
commanded; a wake that has not been served, by its tick; where WAKING stands; and REFUSED. -/
structure RodPm where
  state : RodPower := .on
  till : Nat := 0
  rail : Bool := false
  wake : Option Nat := none
  inrush : Bool := false
  ramping : Bool := false
  restoring : Bool := false
  refused : Bool := false
  deriving DecidableEq, Repr, Inhabited

/-- A slice: the WAYS written, a write of it that acts from the next cycle, staging ways, a change of them in progress with the tick
it can end at, the staging bytes, the memory-side cache, and its spare and disabled ways (R244, R245, R395). -/
structure Slice where
  waysCfg : Nat := 0
  waysNext : Option Nat := none
  ways : Nat := 0
  waysNew : Nat := 0
  busy : Bool := false
  till : Nat := 0
  staging : Mem := []
  lines : List L2Line := []
  spareUsed : Bool := false
  disabled : List Nat := []
  deriving DecidableEq, Repr, Inhabited

/-- One rod. `placeLeft` counts the placement cycles of R208. -/
structure Rod where
  clk : RodClock := {}
  pm : RodPm := {}
  slice : Slice := {}
  kernel : Option Nat := none
  reserved : Option Nat := none
  placeLeft : Nat := 0
  deriving DecidableEq, Repr, Inhabited

/-- One panel: boost permits, pool claim with the tick its place was granted at, thermal trip with the sensor readings taken,
and frequency trace (R231 to R238). -/
structure Panel where
  p : Nat := 64
  d : Nat := 0
  f : Nat := 0
  fall : Option Nat := none
  block : Bool := false
  pool : Bool := false
  poolAt : Nat := 0
  claim : Option Nat := none
  temp : Nat := 0
  readings : Nat := 0
  trip : Bool := false
  lastToggle : Option Nat := none
  trace : Vector (BitVec 64) 256 := Vector.replicate 256 0
  ftcnt : Nat := 0
  deriving DecidableEq, Repr, Inhabited

/-- An entry of a die's priority queue (R75). -/
structure PqEntry where
  key : BitVec 32
  val : BitVec 32
  asid : Nat
  deriving DecidableEq, Repr, Inhabited

/-- A gate weight load in progress (R339): its bank, source, bytes and end tick. -/
structure GateLoad where
  bank : BitVec 1
  src : Nat
  len : Nat
  till : Nat
  deriving DecidableEq, Repr, Inhabited

/-- One die: its priority queue and gate unit (R75, R338, R339). `gatePrev` is what GATECFG held before the tick `gateAt` of its latest
write (R348). -/
structure Die where
  pq : List PqEntry := []
  gatecfg : BitVec 64 := 0
  gatePrev : BitVec 64 := 0
  gateAt : Option Nat := none
  gateload : BitVec 64 := 0
  load : Option GateLoad := none
  bank0 : Mem := []
  bank1 : Mem := []
  deriving DecidableEq, Repr, Inhabited

/-! ### Contexts, images, kernels and the lacer -/

/-- A range register (R263). -/
structure Range where
  vbase : Nat := 0
  vend : Nat := 0
  iabase : Nat := 0
  v : Bool := false
  r : Bool := false
  w : Bool := false
  deriving DecidableEq, Repr, Inhabited

/-- One address space identifier and the context on it (R50, R65, R66, R405). `gen` is its generation, 0 until the first context
(log 4); `ending` marks an end in progress (R404); `destroyQ` is the launch queue whose CTX_DESTROY waits for that end, with the bytes of
the command served; `ringRegs` the fields of RINGCFG, but for EN, that the context has for each ring it has named (R305, R307). -/
structure Ctx where
  gen : Nat := 0
  live : Bool := false
  free : Bool := true
  ranges : Vector Range 16 := Vector.replicate 16 {}
  saveIa : Nat := 0
  saveLen : Nat := 0
  acctIa : Nat := 0
  wdog : Nat := 0
  maxRods : Nat := 0
  pqQuota : Nat := 0
  prioMax : Nat := 0
  lasts : Vector (BitVec 512) 64 := Vector.replicate 64 0
  ending : Bool := false
  byDestroy : Bool := false
  destroyQ : Option (Nat × List Byte) := none
  ringRegs : List (Nat × BitVec 64) := []
  deriving DecidableEq, Repr, Inhabited

/-- A context status entry (Tables 22-1 to 22-3). -/
structure CtxStatus where
  ctxst0 : BitVec 64 := 0
  ctxend : BitVec 64 := 0
  ctxdet : BitVec 64 := 0
  deriving DecidableEq, Repr, Inhabited

/-- A loaded image (R47, R48): its place in the device code region, bytes and reference count. -/
structure Image where
  handle : BitVec 64
  key : BitVec 64
  digest : BitVec 512
  bytes : List Byte
  addr : Nat
  refs : Nat
  tick : Nat
  deriving DecidableEq, Repr, Inhabited

/-- Where a kernel stands (R68, R73, R378, R402). -/
inductive KState where
  | ready | placed | done
  deriving DecidableEq, Repr, Inhabited

/-- One kernel (R68 to R73). `order` is its launch queue and command index for ties (R72); `rods` the rods it holds, in rod order;
`eff` its effective priority (R71); `suspended` that it was pre-empted and not placed since; `yielded` the moment at which a YIELD
ends its quantum; `stop` a pre-emption in progress; `transferDue` that a shared stage met the boundary at which it changes owner while
a save was pending (R91); `lasts` the lasts it holds (R50); `saved` its save records by launch index (R380, R384). -/
structure Kernel where
  num : Nat
  asid : Nat
  image : BitVec 64
  prio : Nat
  st : KState := .ready
  readyTick : Nat
  order : Nat × Nat
  nrods : Nat
  dies : Nat
  rods : List Nat := []
  argVa : Nat
  placedTick : Nat := 0
  quantum : Nat := 0
  eff : Nat := 0
  suspended : Bool := false
  stop : Option PreKind := none
  yielded : Option Nat := none
  stage : Option Nat := none
  transferDue : Bool := false
  pins : List Nat := []
  lasts : List Nat := []
  saved : List Core := []
  deriving DecidableEq, Repr, Inhabited

/-- A lacer stage entry (Table 5-2), with its consume and publish indexes (R312). `src` is the source handle with ETYPE and
EBYTES; `join` is J of the bind that launched it (R311); elements below `feedJoin` reach it from the catch-up entry `feed`
(R87); `gone` says that its kernel has retired while consumers of its elements are left. -/
structure LaceEntry where
  handle : BitVec 64
  src : BitVec 64 × ElemTy × Nat
  ity : ElemTy
  ibytes : Nat
  oty : ElemTy
  obytes : Nat
  parent : Option Nat
  depth : Nat
  priv : Bool
  retiring : Bool := false
  attach : Nat
  owner : Nat
  kernel : Nat
  join : Nat
  srcLast : Nat
  cons : Nat := 0
  pub : Nat := 0
  feed : Option Nat := none
  feedJoin : Nat := 0
  gone : Bool := false
  deriving DecidableEq, Repr, Inhabited

/-- A pipeline of the lacer's pipeline table (R82): its context, its source last, its path of entries, its catch-up entries, and the
order in which its bind completed (R91). -/
structure Pipe where
  asid : Nat
  srcLast : Nat
  path : List Nat
  catchup : List Nat
  join : Nat
  start : Nat
  bound : Nat
  deriving DecidableEq, Repr, Inhabited

/-- An element published by a stage and not yet accepted by every consumer (R86), whose bytes have been read by tick `ready`. -/
structure StageElem where
  entry : Nat
  idx : Nat
  bytes : List Byte
  waiting : List Nat
  core : Nat
  op : Nat
  ready : Nat := 0
  deriving DecidableEq, Repr, Inhabited

/-- A reorder ring that a context holds (R305, R306). -/
structure Ring where
  asid : Nat
  slice : Nat
  base : Nat
  slotlog : Nat
  log2n : Nat
  ticket : BitVec 32 := 0
  head : BitVec 32 := 0
  taken : BitVec 32 := 0
  full : List Bool
  deriving DecidableEq, Repr, Inhabited

/-- A live barrier instance (R302): its scope, kernel, TAG and COUNT, its participants by launch index, and its arrivals
as kernel, launch index and operation. An arrival from another package has no kernel here and counts as kernel 0. -/
structure BarInst where
  scope : Scope
  kernel : Nat
  tag : BitVec 16
  count : Nat
  parts : List Nat
  arrivals : List (Nat × Nat × Nat)
  deriving DecidableEq, Repr, Inhabited

/-! ### The fabric -/

/-- A credit request of a SEND of this package (R321), in the order of arrival. In this and the records below, an
operation is named by the reference of its core (its kernel and launch index, see `State.coreAt`) and its number. -/
structure CreditReq where
  core : Nat
  op : Nat
  flits : Nat
  arrives : Nat
  deriving DecidableEq, Repr, Inhabited

/-- A grant on its way to, or held by, a SEND of this package (R321, R322); `direct` names the RECV it matched. -/
structure Grant where
  core : Nat
  op : Nat
  flits : Nat
  direct : Option (Nat × Nat)
  arrives : Nat
  deriving DecidableEq, Repr, Inhabited

/-- A message on its way from a SEND of this package to its end of a channel to itself (R318, R321); `direct` names the
RECV it will land in. -/
structure Wire where
  core : Nat
  op : Nat
  msg : Message
  direct : Option (Nat × Nat)
  arrives : Nat
  deriving DecidableEq, Repr, Inhabited

/-- A channel end (R316): binding, generations (R326), the receive queue with a mark for messages in the reserved flits
(R318), flits granted and not yet filled, requests, RECVs posted and not yet matched, in order, messages on the way in the
order in which they entered the channel, and grants; and of another package's SENDs, the flits of the requests that wait here and
of the messages granted, with the RECV each has matched (R321). -/
structure Chan where
  en : Bool := false
  generr : Bool := false
  sources : Nat := 0
  oldest : BitVec 8 := 0
  asid : Nat := 0
  home : Nat := 0
  marks : List (BitVec 8 × Nat) := []
  queue : List (Message × Bool) := []
  granted : Nat := 0
  reqs : List CreditReq := []
  posted : List (Nat × Nat) := []
  wire : List Wire := []
  grants : List Grant := []
  asks : List Nat := []
  inbound : List (Nat × Option (Nat × Nat)) := []
  deriving DecidableEq, Repr, Inhabited

/-- A live instance of a reduction slot (R330). -/
structure RedInst where
  gen : BitVec 8
  op : BitVec 2
  ty : ElemTy
  n : Nat
  mask : BitVec 16
  arrived : BitVec 16
  contribs : List Contribution
  deadline : Option Nat
  deriving DecidableEq, Repr, Inhabited

/-- A reduction slot (R329, R330). -/
structure RedSlot where
  lastGen : Option (BitVec 8) := none
  inst : Option RedInst := none
  deriving DecidableEq, Repr, Inhabited

/-- What is on its way between this package's SENDRs and the switches: a contribution to a slot, an answer to a SENDR, or
a result message to a channel (R330, R332). -/
inductive SwitchMsg where
  | contribution (core op slot : Nat) (c : Contribution) (arrives : Nat)
  | answer (core op : Nat) (ok : Bool) (arrives : Nat)
  | result (chan : Nat) (m : Message) (arrives : Nat)
  deriving DecidableEq, Repr, Inhabited

/-! ### Errors -/

/-- An error record (Table 21-4) whose tick of detection has not ended. `named` holds the contexts that the error names, by number, each
with whether its end was begun for this error (R392, R400). -/
structure ErrRec where
  tick : Nat := 0
  line : Nat := 0
  owner : Nat := 0xFFFFFFFF
  unit : Nat := 0
  way : Nat := 0
  source : Nat := 0
  severity : Nat := 0
  actions : Nat := 0
  domain : Nat := 0
  named : List (Nat × Bool) := []
  deriving DecidableEq, Repr, Inhabited

/-- ERRINJ, planted errors, poison, retired frames and containments in progress (R389 to R399). Lines are DRAM offsets
over 128; frames are offsets over 65,536. `planted` holds the line, whether the copy is the DRAM one, and whether it is
uncorrectable; `redirect` the retired frames with their spares; `retiring` a frame with its end tick and the spare it takes; `quarantine`
a slice, a way, its end tick and whether the spare way takes its number; `contained` the lines whose containment has not ended, each with
the slice and way that is quarantined for it (slice 64 for none); `records` the errors detected in this tick (R396); `out` the records that
are still to be written as their page is being retired; `reports` the records owed to another package: its number, the ASID and the line
(R397). `poison` holds the lines whose DRAM copy is poisoned, and `lostBy` the poisoned lines with the ASID of the context that the
loss ended (R390); `held` the accesses of other packages that wait for a page, each
with its kind, 0 a load, 1 a store and 2 an atomic, and the two numbers that name it (R394). -/
structure Errors where
  errinj : BitVec 64 := 0
  planted : List (Nat × Bool × Bool) := []
  poison : List Nat := []
  redirect : List (Nat × Nat) := []
  sparesUsed : Vector Nat 16 := Vector.replicate 16 0
  retiring : List (Nat × Nat × Nat) := []
  quarantine : List (Nat × Nat × Nat × Bool) := []
  contained : List (Nat × Nat × Nat) := []
  records : List ErrRec := []
  out : List ErrRec := []
  lostBy : List (Nat × Nat) := []
  held : List (Nat × Nat × Nat) := []
  reports : List (Nat × Nat × Nat) := []
  frozen : Bool := false
  deriving DecidableEq, Repr, Inhabited

/-! ### The package -/

/-- Package-wide registers of the control register maps. `members` has the domain numbers of the packages of the domain, this
one among them, as the boot configuration gives them (R314, R335). -/
structure Regs where
  rpmsel : BitVec 6 := 0
  pmbase : BitVec 64 := 0
  mnbase : BitVec 64 := 0
  mncfg : BitVec 64 := 4
  mnptr : BitVec 64 := 0
  elbase : BitVec 64 := 0
  elcfg : BitVec 64 := 0x1004
  elptr : BitVec 64 := 0
  eccnt : BitVec 64 := 0
  chsel : BitVec 64 := 0
  lacesel : BitVec 64 := 0
  idleacct : BitVec 64 := 0
  domain : BitVec 4 := 0
  members : BitVec 16 := 1
  deriving DecidableEq, Repr, Inhabited

/-- Package power (R234 to R236). `samples` holds the power samples, latest first, at most 1,000,000; `taken` counts all of them. -/
structure Power where
  boosten : Bool := true
  bentry : BitVec 7 := 16
  avgw : BitVec 16 := 2400
  peakw : BitVec 16 := 2800
  pkceil : Nat := 7
  lastDec : Option Nat := none
  lastChg : Option Nat := none
  samples : List Nat := []
  taken : Nat := 0
  thop : Nat := 3
  thr : BitVec 10 := 380
  deriving DecidableEq, Repr, Inhabited

/-- PMSYNC (R267): the command in progress with the tick a SYNC ends at, REFUSED, and the translations in force, which SYNC
loads from word 0 of the map; `kept` the pages whose SYNC was refused, with the word 0 that was not taken; `queue` the writes of
PMSYNC that wait for the command in progress, by core. `crossings` holds the crossings of this tick, page, COUNT and package (R274), and
`notices` those of earlier ticks whose records wait for a page that is being retired (R394); `peerPins` the local pages that other packages
have pinned, once for each pin (R269). -/
structure PageSync where
  busy : Bool := false
  refused : Bool := false
  op : Nat := 0
  page : Nat := 0
  till : Nat := 0
  inForce : List (Nat × BitVec 32) := []
  kept : List (Nat × Nat) := []
  queue : List (Nat × BitVec 64) := []
  crossings : List (Nat × Nat × Nat) := []
  notices : List (Nat × Nat × Nat) := []
  peerPins : List Nat := []
  deriving DecidableEq, Repr, Inhabited

/-- A launch queue (R61, R62). `blocked` marks a command whose completion waits for a context to end (R67); `serveAt` is the
tick at which the firmware serves the next one (log 3); `late` a command whose completion record waits for its page, with its status and
result (R394); `seen` holds the bytes of slots, by address, as they stood when a
doorbell covered them (R62). -/
structure LaunchQ where
  base : BitVec 64 := 0
  log2n : Nat := 0
  en : Bool := false
  err : Bool := false
  tail : BitVec 32 := 0
  head : BitVec 32 := 0
  blocked : Bool := false
  serveAt : Option Nat := none
  late : Option (List Byte × Nat × Nat) := none
  seen : List (Nat × List Byte) := []
  deriving DecidableEq, Repr, Inhabited

/-- The host side: launch queues, MSI-X vectors raised (link, vector), latest first, the width and speed each host
link trained to (R19, R64), and whether the firmware found at boot carries a valid signature and so runs, with its digest
(R21, R49). -/
structure HostIf where
  lqs : Vector LaunchQ 64 := Vector.replicate 64 {}
  msix : List (Nat × Nat) := []
  links : Vector (Nat × Nat) 2 := Vector.replicate 2 (0, 0)
  firmware : Bool := true
  fwDigest : BitVec 512 := 0
  deriving DecidableEq, Repr, Inhabited

/-- The scheduler's and firmware's tables. -/
structure Work where
  ctxs : Vector Ctx 512 := Vector.replicate 512 {}
  status : Vector CtxStatus 512 := Vector.replicate 512 {}
  images : List Image := []
  used : List (BitVec 64) := []
  kernels : List Kernel := []
  head : Option Nat := none
  lace : Vector (Option LaceEntry) 256 := Vector.replicate 256 none
  pipes : Vector (Option Pipe) 256 := Vector.replicate 256 none
  elems : List StageElem := []
  binds : Nat := 0
  deriving DecidableEq, Repr, Inhabited

/-- The fabric and the package's shared units. `linkGen` holds LINK_GEN traps that wait for the owner of a channel to run on
its HOME core: core, ASID and detail (R328). -/
structure Fabric where
  chans : Vector Chan 256 := Vector.replicate 256 {}
  slots : Vector RedSlot 1024 := Vector.replicate 1024 {}
  switch : List SwitchMsg := []
  linkGen : List (Nat × Nat × BitVec 64) := []
  bars : List BarInst := []
  rings : Vector (Option Ring) 256 := Vector.replicate 256 none
  deriving DecidableEq, Repr, Inhabited

/-- Why the machine stops. -/
inductive Fault where
  /-- Raised by `step` alone, when a package machine check has frozen the package and no step from outside is pending:
  nothing happens until a package reset (R393). Safe. -/
  | packageFrozen
  deriving DecidableEq, Repr, Inhabited

/-- Why an instruction has no meaning. -/
inductive Refusal where
  /-- Raised by an arm of `exec` whose instruction has no meaning yet. Safe. -/
  | notModelled (mnemonic : String)
  deriving DecidableEq, Repr, Inhabited

/-- What a byte of memory held before a write that some core may not have seen yet (R279): the number of the write, the byte's
key, its old value, and the tick from which every read sees the write. -/
structure Past where
  serial : Nat
  key : Nat
  old : Byte
  till : Nat
  deriving DecidableEq, Repr, Inhabited

/-- One package. `act` and `slot` say which core, and which slot of its bundle, the slot instructions act for; `agenda`
lists the steps from outside the machine, oldest first (log 1); `fresh` numbers the free values taken (log 3). `wrote` counts the
writes to memory, `seen` those that every read sees, and `past` holds what the others wrote over, latest first (R279, log 34). -/
structure State where
  now : Nat := 0
  ticked : Nat := 0
  act : Nat := 0
  slot : Nat := 0
  fresh : Nat := 0
  agenda : List Instr := []
  cores : Vector Core 256 := Vector.replicate 256 {}
  rods : Vector Rod 64 := Vector.replicate 64 {}
  panels : Vector Panel 16 := Vector.replicate 16 {}
  dies : Vector Die 2 := Vector.replicate 2 {}
  dram : Mem := []
  wrote : Nat := 0
  seen : Nat := 0
  past : List Past := []
  regs : Regs := {}
  power : Power := {}
  pm : PageSync := {}
  errors : Errors := {}
  host : HostIf := {}
  work : Work := {}
  fabric : Fabric := {}
  deriving DecidableEq, Repr, Inhabited

/-- The package right after the release of package reset: time zero (R4), every register at the reset of its map, every
register without one at the value log 4 names, no context, no image, no kernel, memory with nothing written. -/
def State.reset : State := {}

end Sys2Proof.Machine
end

