-- ==== Sys2Proof/Machine/Ops.lean ====
section
/-!
DEFINITION. The named operations over memory, registers, results in flight and tiles that every meaning shares.
-/
namespace Sys2Proof.Machine

/-- What every meaning answers. -/
abbrev Out := Host.Outcome State Fault Refusal

/-- A step, and another after it. -/
def Out.andThen (o : Out) (f : State → Out) : Out := match o with
  | .next s => f s
  | .fault x => .fault x
  | .refused r => .refused r

/-! ### Memory in canonical form (log 9) -/

/-- The byte at an address; an unlisted address reads 0. -/
def Mem.read : Mem → Nat → Byte
  | [], _ => 0
  | (b, v) :: m, a => if a = b then v else Mem.read m a

/-- A byte written at an address, keeping the form. -/
def Mem.write : Mem → Nat → Byte → Mem
  | [], a, v => if v = 0 then [] else [(a, v)]
  | (b, w) :: m, a, v =>
    if a < b then (if v = 0 then (b, w) :: m else (a, v) :: (b, w) :: m)
    else if a = b then (if v = 0 then m else (a, v) :: m)
    else (b, w) :: Mem.write m a v

/-- The canonical form: addresses strictly rising, no byte 0 listed. -/
def Mem.wf : Mem → Bool
  | [] => true
  | [(_, v)] => v != 0
  | (a, v) :: (b, w) :: m => v != 0 && decide (a < b) && Mem.wf ((b, w) :: m)

/-- `n` bytes from `a`, lowest first. -/
def Mem.bytes (m : Mem) (a : Nat) : Nat → List Byte
  | 0 => []
  | n + 1 => m.read a :: Mem.bytes m (a + 1) n

/-- Bytes written from `a` up. -/
def Mem.writes (m : Mem) (a : Nat) : List Byte → Mem
  | [] => m
  | b :: bs => Mem.writes (m.write a b) (a + 1) bs

/-- Bytes as a little-endian number (R2). -/
def leNat : List Byte → Nat
  | [] => 0
  | b :: bs => b.toNat + 256 * leNat bs

/-- The `n` low bytes of a number, lowest first. -/
def toLe (n : Nat) (v : Nat) : List Byte :=
  (List.range n).map fun i => BitVec.ofNat 8 (v / 256 ^ i)

/-! ### Parts of the state -/

/-- Core `i`. -/
def State.core (s : State) (i : Nat) : Core := s.cores.getD i {}
/-- Core `i` replaced. -/
def State.setCore (s : State) (i : Nat) (c : Core) : State := { s with cores := s.cores.setIfInBounds i c }
/-- Core `i` changed. -/
def State.modCore (s : State) (i : Nat) (f : Core → Core) : State := s.setCore i (f (s.core i))
/-- Rod `i`. -/
def State.rod (s : State) (i : Nat) : Rod := s.rods.getD i {}
/-- Rod `i` changed. -/
def State.modRod (s : State) (i : Nat) (f : Rod → Rod) : State := { s with rods := s.rods.setIfInBounds i (f (s.rod i)) }
/-- Panel `i`. -/
def State.panel (s : State) (i : Nat) : Panel := s.panels.getD i {}
/-- Panel `i` changed. -/
def State.modPanel (s : State) (i : Nat) (f : Panel → Panel) : State :=
  { s with panels := s.panels.setIfInBounds i (f (s.panel i)) }
/-- Die `i`. -/
def State.die (s : State) (i : Nat) : Die := s.dies.getD i {}
/-- Die `i` changed. -/
def State.modDie (s : State) (i : Nat) (f : Die → Die) : State := { s with dies := s.dies.setIfInBounds i (f (s.die i)) }
/-- The reference counter, before its wrap (R4). -/
def State.tick (s : State) : Nat := s.now / 360

/-- Rod of a core (R12). -/
def rodOf (core : Nat) : Nat := core / 4
/-- Panel of a core (R12). -/
def panelOf (core : Nat) : Nat := core / 16
/-- Die of a core (R12). -/
def dieOf (core : Nat) : Nat := core / 128

/-! ### Reading operands: the state before the bundle, with results in flight old or new (R116, R125) -/

/-- Scalar register `r` as slot `slot` of core `n` reads it. x0 reads zero (R122). -/
def Core.rdX (c : Core) (n slot : Nat) (r : BitVec 5) : Word :=
  if r = 0 then 0
  else c.latch.pend.foldl
    (fun v e => match e.val with
      | .x q w => if q = r && Config.seesEarly n c.cyc slot e.uid 0 then w else v
      | _ => v)
    (c.latch.x.getD r.toNat 0)

/-- Predicate `r`; p0 reads true (R122). -/
def Core.rdP (c : Core) (r : BitVec 3) : Bool := r = 0 || c.latch.p.getD r.toNat false
/-- Address register `r`. -/
def Core.rdA (c : Core) (r : BitVec 4) : Word := c.latch.a.getD r.toNat 0
/-- Row cursor `r`. -/
def Core.rdC (c : Core) (r : BitVec 2) : BitVec 6 := c.latch.c.getD r.toNat 0

/-- One result in flight applied to a tile. -/
def PendVal.onTile (t : BitVec 4) (v : Tile) : PendVal → Tile
  | .row q r m w => if q = t then { v with rows := v.rows.setIfInBounds r ((v.rows.getD r 0 &&& ~~~m) ||| (w &&& m)) } else v
  | .tile q w keep _ => if q = t then (if keep then { w with rows := v.rows } else w) else v
  | _ => v

/-- Is this the result of a TCFG of tile `t`? -/
def PendVal.reconf (t : BitVec 4) : PendVal → Bool
  | .tile q _ _ recfg => recfg && q = t
  | _ => false

/-- Tile `t` through the results in flight that `sees` picks (R125). What misses a TCFG sees the old row with the old configuration, and
so nothing that lands after the TCFG (R167). -/
def seeTile (sees : Nat → Bool) (t : BitVec 4) : List Pend → Tile → Tile
  | [], v => v
  | e :: es, v =>
    if sees e.uid then seeTile sees t es (e.val.onTile t v)
    else if e.val.reconf t then v else seeTile sees t es v

/-- Tile `t` as slot `slot` of core `n` sees it when it names row `r` (R125, R167). -/
def Core.rdTile (c : Core) (n slot : Nat) (t : BitVec 4) (r : Nat) : Tile :=
  seeTile (fun u => Config.seesEarly n c.cyc slot u (r + 1)) t c.latch.pend (c.latch.tiles.getD t.toNat {})

/-- The scale latch at the issue cycle, which is never early (R126). -/
def Core.rdSl (c : Core) : BitVec 256 := c.latch.sl

/-- FPFLAGS as RDCTL sees them: flags of results within their bounds are seen or not (R43). -/
def Core.rdFlags (c : Core) (n slot : Nat) : BitVec 6 :=
  c.latch.pend.foldl
    (fun v e => match e.val with
      | .flags f exact => if !exact && Config.seesEarly n c.cyc slot e.uid 0 then v ||| f else v
      | _ => v)
    c.latch.ctl.fpflags

/-- FPFLAGS written: the bits set in `v` are cleared. Flags of results within their bounds may have landed before, as the same
choice says, and are then cleared with the others; those that land later stay (R43). -/
def Core.writeFlags (c : Core) (n slot : Nat) (v : BitVec 6) : Core :=
  let landed := c.latch.pend.filter fun e => match e.val with
    | .flags _ exact => !exact && Config.seesEarly n c.cyc slot e.uid 0
    | _ => false
  { c with arch := { c.arch with
      pend := c.arch.pend.filter fun e => !landed.any fun l => l.uid == e.uid
      ctl := { c.arch.ctl with fpflags :=
        (landed.foldl (fun f e => match e.val with
          | .flags g _ => f ||| g
          | _ => f) c.arch.ctl.fpflags) &&& ~~~v } } }

/-! ### Writing results -/

/-- Change the architectural state. -/
def Core.modArch (c : Core) (f : Arch → Arch) : Core := { c with arch := f c.arch }

/-- A result added to those in flight, landed by cycle `cyc + bound`. -/
def Core.post (c : Core) (bound : Nat) (v : PendVal) : Core :=
  { c with arch := { c.arch with pend := c.arch.pend ++ [{ uid := c.uid, due := c.cyc + bound, val := v }] }, uid := c.uid + 1 }

/-- Is a write to scalar register `r` in flight? -/
def Arch.xInFlight (a : Arch) (r : BitVec 5) : Bool :=
  a.pend.any fun e => match e.val with
    | .x q _ => q = r
    | _ => false

/-- `x[r] := v` with a bound of 1: it has landed when the next bundle issues, unless an earlier write to `r` is still
in flight (R124, R125). Writes to x0 are discarded (R122). -/
def Core.putX (c : Core) (r : BitVec 5) (v : Word) : Core :=
  if r = 0 then c
  else if c.arch.xInFlight r then c.post 1 (.x r v)
  else c.modArch fun a => { a with x := a.x.setIfInBounds r.toNat v }

/-- `x[r] := v` by an interlocked writer (R127): behind an earlier write to `r` that is in flight, the register is held until the value
has landed. -/
def Core.putXHeld (c : Core) (m : Bool) (r : BitVec 5) (v : Word) : Core :=
  let d := c.putX r v
  if r = 0 || !c.arch.xInFlight r then d
  else { d with eng := { d.eng with ilk := d.eng.ilk ++ [{ id := c.uid, xd := r, mclass := m, held := true }] } }

/-- `x[r] := v` with a longer bound (R124). -/
def Core.putXLate (c : Core) (bound : Nat) (r : BitVec 5) (v : Word) : Core :=
  if r = 0 then c else c.post bound (.x r v)

/-- `a[r] := v`, bound 1. -/
def Core.putA (c : Core) (r : BitVec 4) (v : Word) : Core :=
  c.modArch fun a => { a with a := a.a.setIfInBounds r.toNat v }
/-- `c[r] := v`, bound 1. -/
def Core.putC (c : Core) (r : BitVec 2) (v : BitVec 6) : Core :=
  c.modArch fun a => { a with c := a.c.setIfInBounds r.toNat v }
/-- `p[r] := v`, bound 1; writes to p0 are discarded (R122). -/
def Core.putP (c : Core) (r : BitVec 3) (v : Bool) : Core :=
  if r = 0 then c else c.modArch fun a => { a with p := a.p.setIfInBounds r.toNat v }

/-- Flags raised when a result lands (R43). -/
def Core.raise (c : Core) (bound : Nat) (f : Flags) : Core :=
  if f = 0 then c else c.post bound (.flags f false)

/-- Flags set at once (matrix and resolve completion, R191, R359). -/
def Core.raiseNow (c : Core) (f : Flags) : Core :=
  c.modArch fun a => { a with ctl := { a.ctl with fpflags := a.ctl.fpflags ||| f } }

/-- A slot that writes tile `t` issues: marks that belong to the tile are cleared and belong to none (R361). -/
def Core.unmark (c : Core) (t : BitVec 4) : Core :=
  match c.eng.resolve.owner with
  | some (o, _) => if o = t then
      { c with eng := { c.eng with resolve := { c.eng.resolve with owner := none, marks := 0 } } } else c
  | none => c

/-- A tile is busy for so many cycles (R128). -/
def Core.holdTile (c : Core) (bound : Nat) (t : BitVec 4) : Core :=
  { c with eng := { c.eng with vbusy := c.eng.vbusy ++ [(t, c.cyc + bound)] } }

/-- Mark a tile busy from a V or F slot that writes it until its bound passes (R128, R361). -/
def Core.markBusy (c : Core) (bound : Nat) (t : BitVec 4) : Core := (c.unmark t).holdTile bound t

/-- Do two results write a common place? -/
def PendVal.overlap : PendVal → PendVal → Bool
  | .x a _, .x b _ => a = b
  | .row t r m _, .row u q k _ => t = u && r = q && (m &&& k) != 0
  | .row t _ _ _, .tile u _ _ _ => t = u
  | .tile t _ _ _, .row u _ _ _ => t = u
  | .tile t _ _ _, .tile u _ _ _ => t = u
  | .sl m _, .sl k _ => (m &&& k) != 0
  | _, _ => false

/-- Insert a write among the results in flight: `early` says of a reconfiguration of tile `t` that the write lands before it,
by its bound, and so is lost where the tile is zeroed (R167), but never before an earlier write to a common place (R125); it lands after
every other result. -/
def insertRow (early : Nat → Bool) (t : BitVec 4) (e : Pend) : List Pend → List Pend
  | [] => [e]
  | p :: ps =>
    if p.val.reconf t && early p.uid && !ps.any (fun q => q.val.overlap e.val) then { e with due := Nat.min e.due p.due } :: p :: ps
    else p :: insertRow early t e ps

/-- Bytes `mask` of row `r` of tile `t` written with bound `bound` by slot `slot` of core `n` (R170). Beside a TCFG in flight, a
slot that sees the old configuration may land before it or after it (R167, log 22). -/
def Core.putRow (c : Core) (n slot bound : Nat) (t : BitVec 4) (r : Nat) (mask v : Row) (hist : Bool := false) : Core :=
  { c with
    arch := { c.arch with
      pend := insertRow (fun u => !Config.seesEarly n c.cyc slot u (r + 1) && Config.seesEarly n c.cyc slot u (r + 129)) t ⟨c.uid, c.cyc + bound, .row t r mask v, hist⟩
        c.arch.pend },
    uid := c.uid + 1 }

/-! ### Landing (R124 to R126) -/

/-- A result lands. -/
def Arch.apply (a : Arch) : PendVal → Arch
  | .x r v => { a with x := a.x.setIfInBounds r.toNat v }
  | .row t r m v => { a with tiles := a.tiles.setIfInBounds t.toNat ((PendVal.row t r m v).onTile t (a.tiles.getD t.toNat {})) }
  | .tile t v k g => { a with tiles := a.tiles.setIfInBounds t.toNat ((PendVal.tile t v k g).onTile t (a.tiles.getD t.toNat {})) }
  | .sl m v => { a with sl := (a.sl &&& ~~~m) ||| (v &&& m) }
  | .flags f _ => { a with ctl := { a.ctl with fpflags := a.ctl.fpflags ||| f } }

/-- Land, in order, the results whose bound has passed at `cyc` and that no earlier one still in flight overlaps. -/
def landGo (cyc : Nat) : List Pend → List Pend → Arch → Arch
  | [], kept, a => { a with pend := kept.reverse }
  | e :: es, kept, a =>
    if e.due ≤ cyc && !kept.any (fun k => k.val.overlap e.val) then landGo cyc es kept (a.apply e.val)
    else landGo cyc es (e :: kept) a

/-- A request of OPSEL comes into force (R160). -/
def Arch.takeReq (a : Arch) : Arch := { a with opReq := a.opNext.getD a.opReq, opNext := none }

/-- Registers whose value was in flight are held no longer once it has landed (R127). -/
def Core.freeHeld (c : Core) : Core :=
  { c with eng := { c.eng with ilk := c.eng.ilk.filter fun l => !l.held || c.arch.pend.any fun e => e.uid == l.id } }

/-- Results landed at the core's present cycle. -/
def Core.land (c : Core) : Core :=
  ({ c with arch := (landGo c.cyc c.arch.pend [] c.arch).takeReq,
            eng := { c.eng with vbusy := c.eng.vbusy.filter fun b => decide (c.cyc < b.2) } } : Core).freeHeld

/-- Every result in flight lands (R129). -/
def Core.landAll (c : Core) : Core :=
  ({ c with arch := ({ c.arch.pend.foldl (fun (a : Arch) e => a.apply e.val) c.arch with pend := [] } : Arch).takeReq,
            eng := { c.eng with vbusy := [] } } : Core).freeHeld

/-! ### The acting core -/

/-- The acting core. -/
def State.me (s : State) : Core := s.core s.act
/-- The acting core changed: what a slot instruction does to its own core. -/
def State.onMe (s : State) (f : Core → Core) : State := s.modCore s.act f
/-- `x[r]` of the acting core. -/
def State.rx (s : State) (r : BitVec 5) : Word := s.me.rdX s.act s.slot r
/-- `a[r]` of the acting core. -/
def State.ra (s : State) (r : BitVec 4) : Word := s.me.rdA r

/-- A free word and the state with the counter advanced (log 3). -/
def State.freeWord (s : State) : BitVec 64 × State :=
  (Config.freeWord s.fresh, { s with fresh := s.fresh + 1 })

/-- One of `n` choices, and the state with the counter advanced (log 3). -/
def State.choose (s : State) (n : Nat) : Nat × State :=
  (Config.choice s.fresh % n, { s with fresh := s.fresh + 1 })

/-! ### Clocks of rods (R226, R227) -/

/-- The period of a point, in sub-ticks (Table 12-1; log 2). -/
def pointPeriod (p : Nat) : Nat := [1260, 840, 630, 504, 420, 360, 315, 280].getD p 360

/-- Is the rod in a relock? -/
def RodClock.relocking (k : RodClock) : Bool := match k.change with
  | some c => c.relock
  | none => false

/-- The period of the rod's clock: that of the bypass during a relock (R227). -/
def RodClock.period (k : RodClock) : Nat := if k.relocking then 1260 else pointPeriod k.point

/-! ### Contexts and kernels -/

/-- The kernel with a number. -/
def State.kernel? (s : State) (num : Nat) : Option Kernel := s.work.kernels.find? fun k => k.num == num
/-- A kernel changed. -/
def State.modKernel (s : State) (num : Nat) (f : Kernel → Kernel) : State :=
  { s with work := { s.work with kernels := s.work.kernels.map fun k => if k.num == num then f k else k } }
/-- Cores of a rod (R12). -/
def coresOf (rod : Nat) : List Nat := [4 * rod, 4 * rod + 1, 4 * rod + 2, 4 * rod + 3]
/-- Cores of a kernel, in launch order. -/
def Kernel.cores (k : Kernel) : List Nat := k.rods.flatMap coresOf
/-- The reference of a core: its kernel and its launch index, which it keeps while it is saved. -/
def State.refOf (s : State) (core : Nat) : Nat :=
  let u := (s.core core).unit
  256 + 256 * u.kernel.getD 0 + u.idx
/-- The core with a number; from 256 on, the core that a reference names, saved or not (R260, R333). -/
def State.coreAt (s : State) (n : Nat) : Core :=
  if n < 256 then s.core n
  else match s.kernel? ((n - 256) / 256) with
    | some k => if k.st == .placed then s.core (k.cores.getD (n % 256) 0) else k.saved.getD (n % 256) {}
    | none => {}
/-- Such a core changed. -/
def State.modCoreAt (s : State) (n : Nat) (f : Core → Core) : State :=
  if n < 256 then s.modCore n f
  else match s.kernel? ((n - 256) / 256) with
    | some k =>
      if k.st == .placed then s.modCore (k.cores.getD (n % 256) 0) f
      else s.modKernel ((n - 256) / 256) fun k => { k with saved := k.saved.set (n % 256) (f (k.saved.getD (n % 256) {})) }
    | none => s
/-- The core number of such a core, where it is placed. -/
def State.phys (s : State) (n : Nat) : Nat :=
  if n < 256 then n
  else match s.kernel? ((n - 256) / 256) with
    | some k => k.cores.getD (n % 256) 0
    | none => 0
/-- The kernel that holds a core. -/
def State.kernelOf (s : State) (core : Nat) : Option Kernel := (s.core core).unit.kernel.bind s.kernel?
/-- The context record of an ASID. -/
def State.ctx (s : State) (asid : Nat) : Ctx := s.work.ctxs.getD asid {}
/-- A context record changed. -/
def State.modCtx (s : State) (asid : Nat) (f : Ctx → Ctx) : State :=
  { s with work := { s.work with ctxs := s.work.ctxs.setIfInBounds asid (f (s.ctx asid)) } }
/-- The status entry of an ASID. -/
def State.status (s : State) (asid : Nat) : CtxStatus := s.work.status.getD asid {}
/-- A status entry changed. -/
def State.modStatus (s : State) (asid : Nat) (f : CtxStatus → CtxStatus) : State :=
  { s with work := { s.work with status := s.work.status.setIfInBounds asid (f (s.status asid)) } }
/-- The ASID of the context that holds a core. -/
def State.asidOf (s : State) (core : Nat) : Option Nat := (s.kernelOf core).map (·.asid)
/-- The ASID of the context of a core, saved ones included. -/
def State.asidAt (s : State) (n : Nat) : Option Nat :=
  if n < 256 then s.asidOf n else (s.kernel? ((n - 256) / 256)).map (·.asid)
/-- The context number on an ASID (R65). -/
def State.ctxNum (s : State) (asid : Nat) : Nat := (s.ctx asid).gen % 2 ^ 23 * 512 + asid
/-- The live context a number names, if any (R65). -/
def State.liveCtx (s : State) (num : Nat) : Option Nat :=
  let asid := num % 512
  let c := s.ctx asid
  if c.live && !c.ending && s.ctxNum asid == num then some asid else none

/-- A pre-emption of a kernel is requested (R378): each of its cores takes it at its own point. A request of kind END
replaces any other. -/
def State.requestPre (s : State) (num : Nat) (kind : PreKind) : State :=
  match s.kernel? num with
  | none => s
  | some k =>
    if k.stop == some .stop || (k.stop.isSome && kind != .stop) then s
    else
      let s := s.modKernel num fun k => { k with stop := some kind }
      if k.st == .placed then
        k.cores.foldl (fun s c => s.modCore c fun co =>
          match co.seq.pre with
          | .running | .requested _ => { co with seq := { co.seq with
              pre := .requested kind, preAfter := co.seq.preAfter || co.arch.priv || co.seq.trapSeq.isSome } }
          | _ => co) s
      else if kind == .stop then s.modKernel num fun k => { k with st := .done }
      else s

/-! ### Pipelines and their ends (R82, R90) -/

/-- Stage entry `e`, if it is in use. -/
def State.entry? (s : State) (e : Nat) : Option LaceEntry := s.work.lace.getD e none
/-- A stage entry changed. -/
def State.modEntry (s : State) (e : Nat) (f : LaceEntry → LaceEntry) : State :=
  match s.entry? e with
  | some l => { s with work := { s.work with lace := s.work.lace.setIfInBounds e (some (f l)) } }
  | none => s
/-- The pipelines, by slot. -/
def State.pipeList (s : State) : List (Nat × Pipe) :=
  s.work.pipes.toList.zipIdx.filterMap fun p => p.1.map fun q => (p.2, q)
/-- The entries in use, by number. -/
def State.entries (s : State) : List (Nat × LaceEntry) :=
  s.work.lace.toList.zipIdx.filterMap fun p => p.1.map fun q => (p.2, q)

/-- An entry whose kernel has retired leaves the table once no consumer needs it and no pipeline's path has it; a pipeline forgets the
catch-up copies that leave. -/
def State.cleanLace (s : State) : State :=
  let needed := fun e => (s.pipeList.any fun p => p.2.path.contains e) || s.entries.any fun c => !c.2.gone &&
    (c.2.parent == some e || (c.2.feed == some e && decide (c.2.cons < c.2.feedJoin)))
  let out := (s.entries.filter fun l => l.2.gone && !needed l.1).map (·.1)
  let keep := fun p : Nat × Pipe => { p.2 with catchup := p.2.catchup.filter fun e => !out.contains e }
  let s := s.pipeList.foldl (fun (s : State) p =>
    { s with work := { s.work with pipes := s.work.pipes.setIfInBounds p.1 (some (keep p)) } }) s
  out.foldl (fun (s : State) e => { s with work := { s.work with lace := s.work.lace.setIfInBounds e none } }) s

/-- A pipeline ends (R90): its private stages and its catch-up branch retire, ATTACH falls on the shared entries of its path, and an
entry that no pipeline uses is RETIRING. -/
def State.endPipe (s : State) (slot : Nat) : State :=
  match s.work.pipes.getD slot none with
  | none => s
  | some p =>
    let s := { s with work := { s.work with pipes := s.work.pipes.setIfInBounds slot none } }
    let own := p.catchup ++ p.path.filter fun e => (s.entry? e).any (·.priv)
    let s := own.foldl (fun (s : State) e => match s.entry? e with
      | some l => if l.gone then s else s.requestPre l.kernel .stop
      | none => s) s
    (p.path.foldl (fun (s : State) e => s.modEntry e fun l =>
      if l.priv then l else { l with attach := l.attach - 1, retiring := l.retiring || decide (l.attach ≤ 1) }) s).cleanLace

/-- Is a kernel a stage that a pipeline of another context uses (R91)? -/
def State.sharedStage (s : State) (k : Kernel) : Bool :=
  match k.stage with
  | some e => s.pipeList.any fun p => p.2.asid != k.asid && p.2.path.contains e
  | none => false

/-- The end of a context begins (R372, R404): its status entry is set once, its pipelines end (R90), and every kernel of it is to
retire, but for a shared stage, which moves to its next owner (R91). `kind`,
`cls`, `status`, `core` and `detail` are the fields of Tables 22-2 and 22-3. -/
def State.endContext (s : State) (asid kind cls status core : Nat) (detail : BitVec 64) : State :=
  let c := s.ctx asid
  if c.ending || !c.live then s
  else
    let s := s.modCtx asid fun c => { c with ending := true, byDestroy := decide (kind = 0) }
    let s := s.modStatus asid fun e =>
      let short := e.ctxend &&& 0x2000000000000000#64
      { e with
        ctxend := short ||| 0x8000000000000000#64 ||| BitVec.ofNat 64 (core * 2 ^ 24 + cls * 2 ^ 20 + kind * 2 ^ 16 + status),
        ctxdet := detail }
    let s := (s.pipeList.filter fun p => p.2.asid == asid).foldl (fun (s : State) p => s.endPipe p.1) s
    (s.work.kernels.filter fun k => k.asid == asid && !s.sharedStage k).foldl (fun s k => s.requestPre k.num .stop) s

/-- The probe that walks or is to walk next, of those that a core has issued. -/
def Engines.probe (e : Engines) : Option Probe := e.probes.head?

/-! ### Traps (R370 to R375) -/

/-- Is a trap class asynchronous (Table 20-1)? -/
def trapAsync (cls : Nat) : Bool := cls == 1 || decide (cls ≥ 7)

/-- Every loop level closed and every delta 0 (R151). -/
def closedLoops : Vector LoopLvl 4 := Vector.replicate 4 {}

/-- Is a pre-emption requested of a core that it has not taken? -/
def Seq.preAsked (q : Seq) : Bool := match q.pre with
  | .requested _ => true
  | _ => false

/-- The registers and the sequence that trap entry leaves on a core (R373): the return address, cause and detail saved,
the loop buffer, a sleep, a FENCE and a probe's fault that held the next bundle held aside, privileged mode, the handler's address, and
24 cycles to pass. A pre-emption that is pending is taken at the boundary after the return (R374, R378, log 29). -/
def Core.enterTrap (c : Core) (tvec : BitVec 64) (cls : Nat) (detail : BitVec 64) (ret : Word) : Core :=
  { c with
    arch := { c.arch with
      pc := (tvec &&& ~~~0xFFF#64) + BitVec.ofNat 64 (64 * cls),
      priv := true,
      loops := closedLoops,
      ctl := { c.arch.ctl with
        tepc := ret &&& ~~~3#64,
        tcause := BitVec.ofNat 64 ((if trapAsync cls then 16 else 0) + cls),
        tdetail := detail } },
    seq := { c.seq with
      redirected := true,
      heldLoops := c.arch.loops,
      heldSleep := c.seq.sleepTo,
      sleepTo := none,
      fence := if cls == 5 || cls == 6 then c.seq.fence else [],
      heldFence := if cls == 5 || cls == 6 then [] else c.seq.fence,
      heldTo := c.uid,
      preAfter := c.seq.preAfter || c.seq.preAsked,
      walk := 0,
      trapSeq := some (.entry 24 cls detail) },
    eng := if c.eng.probe.any (·.faulted) then { c.eng with aside := c.eng.aside ++ c.eng.probes, probes := [] } else c.eng,
    unit := if cls = 7 then { c.unit with wdog := 0 } else c.unit }

/-- TAKING AN EXCEPTION, the one operation for every class (R371 to R374): FATAL_ACCESS, and a synchronous class or
WATCHDOG raised in privileged mode, end the context; every other class enters its handler with return address `ret`. -/
def State.takeTrap (s : State) (core cls : Nat) (detail : BitVec 64) (ret : Word) : State :=
  let c := s.core core
  let fin := fun (d : BitVec 64) => match s.asidOf core with
    | some asid => s.endContext asid 1 cls 0 core d
    | none => s
  if c.arch.priv then fin (detail ||| 0x8000000000000000#64)
  else if cls = 0 then fin detail
  else s.modCore core fun c => c.enterTrap c.tvec cls detail ret

/-- A trap class becomes pending on a core (R370). -/
def State.pendTrap (s : State) (core cls : Nat) (detail : BitVec 64) : State :=
  s.modCoreAt core fun c => { c with seq := { c.seq with pendTraps := c.seq.pendTraps ++ [(cls, detail)] } }

/-- An asynchronous class that ends its context is raised on a core: pending, or, in privileged mode, the end at once (R392). -/
def State.raiseAsync (s : State) (core cls : Nat) (detail : BitVec 64) : State :=
  if (s.core core).arch.priv then s.takeTrap core cls detail 0 else s.pendTrap core cls detail

/-- A class that the committed bundle raises: taken now, or, where a pending class has a lower code, after it (R370). -/
def State.raiseTrap (s : State) (core cls : Nat) (detail : BitVec 64) (ret : Word) : State :=
  let c := s.core core
  if !c.arch.priv && c.seq.pendTraps.any (fun p => decide (p.1 < cls)) then s.pendTrap core cls detail
  else s.takeTrap core cls detail ret

/-- The registers that RFE leaves (R375): loop buffer, mode and program counter restored, a sleep and probes resumed, and 24
cycles to pass. -/
def Core.leaveTrap (c : Core) : Core :=
  { c with
    arch := { c.arch with pc := c.latch.ctl.tepc &&& ~~~3#64, priv := false, loops := c.seq.heldLoops },
    seq := { c.seq with
      redirected := true,
      sleepTo := c.seq.heldSleep,
      heldSleep := none,
      fence := c.seq.fence ++ c.seq.heldFence,
      heldFence := [],
      trapSeq := some (.ret 24) },
    eng := { c.eng with probes := c.eng.aside ++ c.eng.probes, aside := [] } }

/-- RETURN FROM AN EXCEPTION (R375): after a fatal MACHINE_CHECK it ends the context instead. -/
def State.returnTrap (s : State) (core : Nat) : State :=
  let c := s.core core
  if (c.latch.ctl.tcause.toNat % 16 == 1) && c.latch.ctl.tdetail.msb then
    match s.asidOf core with
    | some asid => (s.modCore core Core.leaveTrap).endContext asid 1 1 0 core c.latch.ctl.tdetail
    | none => s.modCore core Core.leaveTrap
  else s.modCore core Core.leaveTrap

end Sys2Proof.Machine
end

