-- ==== Sys2Proof/Machine/Addr.lean ====
section
/-!
DEFINITION. Addresses: the interleave and home slices (R246, R247), the latency table (R248), range registers (R263 to
R265), the firmware window (R376), the code mapping (R48) and the page map (R266, R267).
-/
namespace Sys2Proof.Machine

/-- First byte of the code mapping (R48). -/
def codeBase : Nat := 0xFFFFFFF400000000
/-- First byte of the latency table (R248). -/
def tableBase : Nat := 0xFFFFFFF000000000
/-- First byte of the firmware window (R376). -/
def fwWindow : Nat := 0xFFFFFFE000000000

/-- DRAM stack of a package offset (R247). -/
def stackOf (o : Nat) : Nat :=
  let g := o / 65536
  (g % 16) ^^^ (g / 16 % 16) ^^^ (g / 256 % 16)
/-- Stack-local address of a package offset (R247). -/
def stackOff (o : Nat) : Nat := o / 65536 / 16 * 65536 + o % 65536
/-- Home slice of the line that holds a package offset (R246). -/
def homeSlice (o : Nat) : Nat := 4 * stackOf o + ((o / 128 % 4) ^^^ (o / 512 % 4))

/-- Column of a panel in the latency grid (R248). -/
def panelCol (p : Nat) : Nat := 4 * (p / 8) + p % 8 % 4
/-- Row of a panel. -/
def panelRow (p : Nat) : Nat := p % 8 / 4
/-- Difference of two numbers. -/
def dist (a b : Nat) : Nat := (a - b) + (b - a)
/-- L(c, s), in ticks (R248). -/
def sliceLatency (c s : Nat) : Nat :=
  if s = c / 4 then 14
  else
    let pc := c / 16
    let ps := s / 4
    let x := if c / 128 = s / 32 then 0 else 1
    let hops := dist (panelRow pc) (panelRow ps) + dist (panelCol pc) (panelCol ps)
    18 + 4 * hops + 62 * x + (if ps = 7 || ps = 15 then 6 else 0)
      + (if x = 1 && (panelRow pc = 1 || panelRow ps = 1) then 4 else 0)

/-! ### The page map -/

/-- Package offset of the page map entry of a local page (R266). -/
def State.mapEntry (s : State) (page : Nat) : Nat :=
  (((s.regs.pmbase >>> 16).toNat % 2 ^ 36) * 65536 + 8 * page) % 2 ^ 39
/-- Word 0 of an entry, as it stands in DRAM. -/
def State.mapWord0 (s : State) (page : Nat) : Nat := leNat (s.dram.bytes (s.mapEntry page) 4)
/-- Word 1 of an entry. -/
def State.mapWord1 (s : State) (page : Nat) : Nat := leNat (s.dram.bytes (s.mapEntry page + 4) 4)
/-- Word 1 of an entry written by the memory side. -/
def State.setMapWord1 (s : State) (page v : Nat) : State :=
  { s with dram := s.dram.writes (s.mapEntry page + 4) (toLe 4 v) }
/-- V of word 0. -/
def wordV (w : Nat) : Bool := w / 2 ^ 31 % 2 = 1
/-- WR of word 0. -/
def wordWr (w : Nat) : Bool := w / 2 ^ 30 % 2 = 1
/-- Is a local page one of the map's own, which its entries do not translate (R266)? -/
def State.mapPage (s : State) (page : Nat) : Bool :=
  decide ((page + 2 ^ 23 - (s.regs.pmbase >>> 16).toNat % 2 ^ 23) % 2 ^ 23 < 1024)
/-- Word 0 in force: what the latest SYNC loaded (R267); a page of the map stands in the frame of its own number (R266). -/
def State.wordInForce (s : State) (page : Nat) : Nat :=
  if s.mapPage page then 2 ^ 31 + 2 ^ 30 + page
  else match s.pm.inForce.find? fun e => e.1 == page with
    | some e => e.2.toNat
    | none => 0
/-- What a word 0 allows: nothing, reads, or reads and writes. -/
def wordRank (w : Nat) : Nat := if !wordV w then 0 else if wordWr w then 2 else 1
/-- Word 0 by which an access to a line translates: between the store of word 0 and the end of its SYNC, the old or the
new one, the same for a whole line; after a refused SYNC, the old one; on a pinned page, never a new one that allows less than the
old (R267, R272). -/
def State.pageWord (s : State) (page line : Nat) : Nat :=
  let old := s.wordInForce page
  let new := s.mapWord0 page
  if old = new || s.mapPage page then old
  else
    if s.pm.kept.contains (page, new) || Config.choiceAt 1 s.tick line % 2 = 0
        || (s.mapWord1 page % 65536 != 0 && decide (wordRank new < wordRank old)) then old
    else new

/-- Package number of an intermediate address (R262). -/
def iaPkg (ia : Nat) : Nat := ia / 2 ^ 48 % 16
/-- Bits 47:39, which name no memory when any is set (R262). -/
def iaHole (ia : Nat) : Bool := ia / 2 ^ 39 % 512 != 0
/-- Local page of an intermediate address (R262). -/
def iaPage (ia : Nat) : Nat := ia / 65536 % 2 ^ 23
/-- Is an intermediate address local (R262)? -/
def State.iaLocal (s : State) (ia : Nat) : Bool := iaPkg ia == s.regs.domain.toNat

/-- Memory-side translation of an intermediate address (R266, R268): none where it reaches an unmapped page. Whether a
page of another package is mapped, and writable, is that package's (log 13). -/
def State.iaLoc (s : State) (ia : Nat) (write : Bool) : Option Loc :=
  if iaHole ia then none
  else if s.iaLocal ia then
    let w := s.pageWord (iaPage ia) (ia / 128)
    if !wordV w || (write && !wordWr w) then none
    else some (.dram (w % 2 ^ 23 * 65536 + ia % 65536) ia false)
  else if Config.choiceAt 2 0 (ia / 65536) % 2 = 0 || (write && Config.choiceAt 2 1 (ia / 65536) % 2 = 0) then none
  else some (.remote ia)

/-! ### Range registers -/

/-- The window that holds a virtual address (R265). -/
def Ctx.window (c : Ctx) (va : Nat) : Option Range :=
  c.ranges.find? fun w => w.v && decide (w.vbase ≤ va) && decide (va < w.vend)

/-- Translate a virtual address, and `len` bytes of footprint within one window, to an intermediate address (R265). -/
def Ctx.translate (c : Ctx) (va len : Nat) (needR needW : Bool) : Option Nat :=
  match c.window va with
  | none => none
  | some w =>
    if (needR && !w.r) || (needW && !w.w) || decide (w.vend < va + len) then none
    else some (w.iabase + (va - w.vbase))

/-- The image with a handle. -/
def State.image? (s : State) (h : BitVec 64) : Option Image := s.work.images.find? fun i => i.handle == h
/-- The image of the kernel that holds a core. -/
def State.imageOf (s : State) (core : Nat) : Option Image := (s.kernelOf core).bind fun k => s.image? k.image
/-- A field of an image: `n` bytes at `off`, little-endian (R45). -/
def Image.le (i : Image) (off n : Nat) : Nat := leNat ((i.bytes.drop off).take n)
/-- Code section: offset and size (Table 3-1). -/
def Image.codeOff (i : Image) : Nat := i.le 0x08 4
/-- CODESIZE. -/
def Image.codeSize (i : Image) : Nat := i.le 0x0C 4

/-- The place of an access of `n` bytes at a virtual address by a core (R48, R248, R250, R265, R376): none where it is a
FATAL_ACCESS. In privileged mode the firmware window comes first. -/
def State.resolve (s : State) (core va n : Nat) (needR needW : Bool) (loadOnly : Bool) : Option Loc :=
  if (s.core core).latch.priv && decide (fwWindow ≤ va) && decide (va + n ≤ fwWindow + 2 ^ 32) then
    let o := (Config.fwBase + (va - fwWindow)) % 2 ^ 39
    some (.dram o (s.regs.domain.toNat * 2 ^ 48 + o) true)
  else if decide (tableBase ≤ va) && decide (va + n ≤ tableBase + 16384) then
    if loadOnly then some (.table (va - tableBase)) else none
  else if decide (codeBase ≤ va) && decide (va < codeBase + 0x1000000) then
    match s.imageOf core with
    | some i => if loadOnly && decide (va + n ≤ codeBase + i.codeSize) then some (.code (i.addr + i.codeOff + (va - codeBase)))
      else none
    | none => none
  else
    match (s.asidOf core).bind fun a => (s.ctx a).translate va n needR needW with
    | some ia => s.iaLoc ia needW
    | none => none

/-- Key of a byte of another package in this model's memory. -/
def remoteKey (ia : Nat) : Nat := 2 ^ 52 + ia

/-- The image whose code section holds a byte of the device code region. -/
def State.codeByte (s : State) (a : Nat) : Byte :=
  match s.work.images.find? fun i => decide (i.addr ≤ a) && decide (a < i.addr + i.bytes.length) with
  | some i => i.bytes.getD (a - i.addr) 0
  | none => 0

/-- `n` bytes at a place. -/
def State.locBytes (s : State) (l : Loc) (n : Nat) : List Byte :=
  match l with
  | .dram o _ _ => s.dram.bytes o n
  | .remote ia => s.dram.bytes (remoteKey ia) n
  | .code a => (List.range n).map fun i => s.codeByte (a + i)
  | .table off => (List.range n).map fun i => BitVec.ofNat 8 (sliceLatency ((off + i) / 64) ((off + i) % 64))

/-- The bytes written, and what they overwrite kept for reads that may not see the write before tick `till` (R279). -/
def State.putBytes (s : State) (key : Nat) (bs : List Byte) (till : Nat) : State :=
  { s with
    dram := s.dram.writes key bs
    wrote := s.wrote + 1
    past := bs.zipIdx.map (fun b => ⟨s.wrote, key + b.2, s.dram.read (key + b.2), till⟩) ++ s.past }

/-- Bytes, each with its key, written as one write (R276). -/
def State.putCells (s : State) (cells : List (Nat × Byte)) (till : Nat) : State :=
  { s with
    dram := cells.foldl (fun (m : Mem) e => m.write e.1 e.2) s.dram
    wrote := s.wrote + 1
    past := cells.map (fun e => ⟨s.wrote, e.1, s.dram.read e.1, till⟩) ++ s.past }

/-- Bytes written so that every read sees them at once, whatever it has seen of other writes. -/
def State.putSeen (s : State) (key : Nat) (bs : List Byte) : State :=
  { s with
    dram := s.dram.writes key bs
    past := s.past.filter fun e => !(decide (key ≤ e.key) && decide (e.key < key + bs.length)) }

/-- Bytes written at a place by a write that reaches its home slice at tick `at`; the code section and the latency table are
never written. A read 2,800 ticks later sees it (R279). -/
def State.putLocAt (s : State) (l : Loc) (bs : List Byte) (t : Nat) : State :=
  match l with
  | .dram o _ _ => s.putBytes o bs (t + 2800)
  | .remote ia => s.putBytes (remoteKey ia) bs (t + 5600)
  | _ => s

/-- Bytes written at a place now. -/
def State.putLoc (s : State) (l : Loc) (bs : List Byte) : State := s.putLocAt l bs s.tick

/-- A byte of memory as it stood after the first `v` writes. -/
def State.viewByte (s : State) (v a : Nat) : Byte :=
  s.past.foldl (fun b e => if e.key == a && decide (v ≤ e.serial) then e.old else b) (s.dram.read a)

/-- `n` bytes at a place as a read that has seen `v` writes finds them. -/
def State.viewBytes (s : State) (v : Nat) (l : Loc) (n : Nat) : List Byte :=
  match l with
  | .dram o _ _ => (List.range n).map fun i => s.viewByte v (o + i)
  | .remote ia => (List.range n).map fun i => s.viewByte v (remoteKey ia + i)
  | _ => s.locBytes l n

/-- The writes that a read of a core sees: a free number of them, but never fewer than its earlier reads saw, than its own
writes, or than the writes whose time to be seen by all has come (R279, log 34). -/
def State.pickView (s : State) (core : Nat) : Nat × State :=
  let lo := Nat.max (s.core core).view s.seen
  if s.wrote ≤ lo then (s.wrote, s)
  else
    let r := s.choose (s.wrote - lo + 1)
    (lo + r.1, r.2)

/-- A core's reads see every write so far: after its own write, and where it observes a token complete (R278). -/
def State.catchUp (s : State) (core : Nat) : State := s.modCore core fun c => { c with view := s.wrote }

/-- Writes whose time to be seen by all has come are seen by all, with those before them. -/
def State.agePast (s : State) : State :=
  let seen := s.past.foldl (fun m e => if e.till ≤ s.tick then Nat.max m (e.serial + 1) else m) s.seen
  { s with seen := seen, past := s.past.filter fun e => decide (seen ≤ e.serial) }

end Sys2Proof.Machine
end

