-- ==== Sys2Proof/Machine/Errors.lean ====
section
/-!
DEFINITION. Errors, poison and containment (R386 to R400): the error log, the ending of an owner, retirement, quarantine,
the package machine check, and the steps PAGE_RETIREMENT, ERRINJ_WRITE and REMOTE_ERROR_REPORT.
-/
namespace Sys2Proof.Machine

/-- Bit `i` of a register. -/
def rbit (v : BitVec 64) (i : Nat) : Bool := v.getLsbD i
/-- Field `bits[lo + n - 1 : lo]` of a register, as a number. -/
def rfield (v : BitVec 64) (lo n : Nat) : Nat := (v.extractLsb' lo n).toNat
/-- A register with bits under `mask` replaced (R5). -/
def setBits (old mask new : BitVec 64) : BitVec 64 := (old &&& ~~~mask) ||| (new &&& mask)

/-- Slots of a log or notice ring: 2^LOG2N, values outside 4 to 16 acting as 4 (Tables 14-12, 21-7). -/
def ringSlots (log2n : Nat) : Nat := if 4 ≤ log2n && log2n ≤ 16 then 2 ^ log2n else 16

/-- Does a slice take part (R239)? -/
def Rod.sliceUp (r : Rod) : Bool := r.pm.state == .on

/-- The copy of a line that its home slice holds, so that a read reads it. -/
def State.l2Copy (s : State) (line : Nat) : Option L2Line :=
  let r := s.rod (homeSlice (line * 128))
  if r.sliceUp then r.slice.lines.find? fun l => l.line == line else none

/-- Does a slice hold a DRAM line, so that a read reads the L2 copy? -/
def State.l2Holds (s : State) (line : Nat) : Bool := (s.l2Copy line).isSome

/-- Is the copy of a line that an access reaches poisoned: the slice's where it holds the line, or else DRAM's (R390)? -/
def State.poisoned (s : State) (line : Nat) : Bool := match s.l2Copy line with
  | some l => l.poison
  | none => s.errors.poison.contains line

/-- The DRAM copy of a line is poisoned, or is not (R390). -/
def State.markDram (s : State) (line : Nat) (lost : Bool) : State :=
  if s.errors.poison.contains line == lost then s
  else { s with errors := { s.errors with poison :=
    if lost then line :: s.errors.poison else s.errors.poison.filter (· != line) } }

/-- The copy of a line in a slice is poisoned, or is not (R390). -/
def State.markSlice (s : State) (slice line : Nat) (lost : Bool) : State :=
  s.modRod slice fun r => { r with slice := { r.slice with
    lines := r.slice.lines.map fun l => if l.line == line then { l with poison := lost } else l } }

/-- The copy of a line that an access reaches is poisoned, or is not. -/
def State.mark (s : State) (line : Nat) (lost : Bool) : State :=
  if s.l2Holds line then s.markSlice (homeSlice (line * 128)) line lost else s.markDram line lost

/-- A write into a line clears its poison: bytes of the line that the write does not cover read zero (R390). -/
def State.clearPoison (s : State) (line : Nat) : State :=
  if s.poisoned line then
    let s := s.mark line false
    { s with errors := { s.errors with lostBy := s.errors.lostBy.filter fun e => e.1 != line },
             dram := s.dram.writes (line * 128) (List.replicate 128 0) }
  else s

/-- Is a line lost to the context of a core, which the loss has ended, so that its reads of the line are not counted (R390)? -/
def State.lostTo (s : State) (core line : Nat) : Bool := match s.asidAt core with
  | some a => s.errors.lostBy.contains (line, a)
  | none => false

/-- Lines, `line` the first of them, move between a stack controller and the frame of the page that an intermediate address names,
by its old or its new word 0: COUNT rises by their number, and a crossing of THRESH is noted. -/
def State.countMove (s : State) (line ia pkg : Nat) (lines : Nat := 1) : State :=
  let page := iaPage ia
  let names := fun w => wordV w && w % 2 ^ 23 == line / 512
  if !s.iaLocal ia || iaHole ia || lines = 0 || !(names (s.wordInForce page) || (!s.mapPage page && names (s.mapWord0 page))) then s
  else
    let w := s.mapWord1 page
    let old := w / 65536 % 16384
    let n := Nat.min (old + lines) 16383
    let s := s.setMapWord1 page (w / 2 ^ 30 * 2 ^ 30 + n * 65536 + w % 65536)
    let th := rfield s.regs.mncfg 32 14
    if decide (old < th) && decide (th ≤ n) then { s with pm := { s.pm with crossings := s.pm.crossings ++ [(page, th, pkg)] } }
    else s

/-- An MSI-X vector raised on both host links (R396, R404). -/
def State.msix (s : State) (vec : Nat) : State :=
  { s with host := { s.host with msix := (1, vec) :: (0, vec) :: s.host.msix } }

/-- The 32 bytes of a record (Table 21-4). -/
def ErrRec.bytes (r : ErrRec) : List Byte :=
  toLe 8 (r.tick % 2 ^ 64) ++ toLe 8 r.line ++ toLe 4 r.owner ++ toLe 1 r.unit ++ toLe 1 r.way ++ toLe 1 r.source ++ toLe 1 r.severity
    ++ toLe 1 r.actions ++ toLe 1 r.domain ++ toLe 6 0

/-- The place of a record among those of its tick: by stack, then by slice, then by core, the shared units behind them (R396), and last
that of a package machine check, which is the last to be written (R393). -/
def ErrRec.place (r : ErrRec) : Nat :=
  if r.severity = 4 then 8192
  else if r.source = 4 then r.unit
  else if r.source = 2 || r.source = 3 || r.source = 7 then 1024 + r.unit
  else if r.source = 8 then 4096
  else 2048 + r.unit

/-- Insertion into a list in rising order of a key. -/
def insertBy {α : Type} (key : α → Nat) (x : α) : List α → List α
  | [] => [x]
  | y :: ys => if key x < key y then x :: y :: ys else y :: insertBy key x ys

/-- A list sorted by a key, equal keys in their order. -/
def sortBy {α : Type} (key : α → Nat) (l : List α) : List α := l.foldl (fun acc x => insertBy key x acc) []

/-- The records of a tick in their order, each with the context that it ends: the first record that names a context whose end was begun
in the tick has it (R396, R400). -/
def settleRecords (all : List ErrRec) : List ErrRec → List Nat → List ErrRec
  | [], _ => []
  | r :: rs, done =>
    let mine := (r.named.map (·.1)).filter fun c => !done.contains c && all.any fun q => q.named.contains (c, true)
    let r' := match mine with
      | [] => r
      | c :: _ => { r with owner := c, actions := r.actions + 1 }
    r' :: settleRecords all rs (mine ++ done)

/-- An error of this tick is to be recorded (R396). -/
def State.logError (s : State) (r : ErrRec) : State :=
  { s with errors := { s.errors with records := s.errors.records ++ [{ r with tick := s.tick }] } }

/-- ECCCNT counts a corrected error, saturating (Table 21-9). -/
def State.countEcc (s : State) (dram : Bool) : State :=
  let c := s.regs.eccnt
  let lo := rfield c 0 32
  let hi := rfield c 32 32
  let c' := if dram then BitVec.ofNat 64 (lo + Nat.min (hi + 1) (2 ^ 32 - 1) * 2 ^ 32)
    else BitVec.ofNat 64 (Nat.min (lo + 1) (2 ^ 32 - 1) + hi * 2 ^ 32)
  { s with regs := { s.regs with eccnt := c' } }

/-- A corrected error is counted, and recorded when CEREC is set (R386, R396). -/
def State.countCorrected (s : State) (dram : Bool) (r : ErrRec) : State :=
  let s := s.countEcc dram
  if rbit s.regs.elcfg 11 then s.logError { r with severity := 0 } else s

/-- The MACHINE_CHECK detail word (R397). -/
def mcDetail (fatal : Bool) (source line : Nat) (engine : Bool) (token : Nat) : BitVec 64 :=
  BitVec.ofNat 64 ((if fatal then 2 ^ 63 else 0) + source * 2 ^ 56 + line / 128 % 2 ^ 45 * 128
    + (if engine then 64 + token else 0))

/-- Does a core run its program: it has work units left, is not halted, and is in no pre-emption and no restore (R392)? -/
def Core.runs (c : Core) : Bool :=
  !c.unit.ended && !c.dbg.halted && match c.seq.pre with
    | .running | .requested _ => true
    | _ => false

/-- Cores that run a context: held by a placed kernel of it (R392). -/
def State.runningCores (s : State) (asid : Nat) : List Nat :=
  (s.work.kernels.filter fun k => k.asid == asid && k.st == .placed).flatMap fun k => k.cores.filter fun c => (s.core c).runs

/-- Is a trap class a fatal MACHINE_CHECK (R397)? -/
def isFatal (e : Nat × BitVec 64) : Bool := e.1 == 1 && e.2.msb

/-- Has an error ended the context of a core whose end has not begun: a fatal MACHINE_CHECK is raised on it, is to be, or is in its
handler (R392)? -/
def Core.doomed (c : Core) : Bool :=
  c.seq.pendTraps.any isFatal || c.eng.memq.any (fun o => o.mc.any isFatal) ||
    (c.arch.priv && c.arch.ctl.tcause.toNat % 16 == 1 && c.arch.ctl.tdetail.msb)

/-- Does an error end a context that is live, so that ACTIONS bit 0 is set: one that is not ending, and that no earlier error has ended
(R392, Table 21-11)? A package machine check lets no context end (R393). -/
def State.endsNow (s : State) (asid : Nat) : Bool :=
  !s.errors.frozen && (s.ctx asid).live && !(s.ctx asid).ending && !(s.runningCores asid).any fun c => (s.core c).doomed

/-- An error ends a context (R392): a fatal MACHINE_CHECK on each running unprivileged core, an end at once where a core
is already privileged or none runs. `eng` is the token of the engine operation that found the error, if one did (R397). After a package
machine check no context ends (R393). -/
def State.endOwner (s : State) (asid source line : Nat) (eng : Option Nat := none) : State :=
  let d := mcDetail true source line eng.isSome (eng.getD 0)
  let cs := s.runningCores asid
  if s.errors.frozen then s
  else match cs.find? fun c => (s.core c).arch.priv with
  | some c => s.endContext asid 1 1 0 c d
  | none =>
    if cs.isEmpty then s.endContext asid 1 1 0 0 d
    else cs.foldl (fun s c => if (s.core c).seq.pendTraps.any isFatal then s else s.pendTrap c 1 d) s

/-- A package machine check (R393): every clock stops, and its log record is the last to be written (`step`). -/
def State.packageCheck (s : State) (source line unit : Nat) (way : Nat := 0) : State :=
  if s.errors.frozen then s
  else
    let s := { s with errors := { s.errors with frozen := true } }
    ((List.range 256).foldl (fun (s : State) c => s.pendTrap c 1 (mcDetail true source line false 0)) s).logError
      { line := line, unit := unit, way := way, source := source, severity := 4, domain := s.regs.domain.toNat }

/-- Ticks that a retirement or quarantine takes: at most 14,000 (R394, R395). -/
def State.containTicks (s : State) : Nat × State :=
  let r := s.choose 14000
  (r.1 + 1, r.2)

/-- Start the retirement of a frame (R394), with a spare frame of its stack; answers the ACTIONS bits. A frame that is being retired is
retired once; the spare of a retired page can be retired in its turn. -/
def State.startRetire (s : State) (frame : Nat) : Nat × State :=
  let st := stackOf (frame * 65536)
  let n := s.errors.sparesUsed.getD st 0
  if s.errors.retiring.any fun e => e.1 == frame then (2, s)
  else if n ≥ 64 then (32, s)
  else
    let r := s.containTicks
    (2 + 16, { r.2 with errors := { r.2.errors with
      retiring := r.2.errors.retiring ++ [(frame, s.tick + r.1, n)],
      sparesUsed := r.2.errors.sparesUsed.setIfInBounds st (n + 1) } })

/-- Start the quarantine of a way (R395), which the slice's spare way replaces if it is free; answers the ACTIONS bits. A way that is
being quarantined is quarantined once. -/
def State.startQuarantine (s : State) (slice way : Nat) : Nat × State :=
  if s.errors.quarantine.any fun e => e.1 == slice && e.2.1 == way then (4, s)
  else
    let r := s.containTicks
    let spare := !(s.rod slice).slice.spareUsed
    let s := { r.2 with errors := { r.2.errors with quarantine := r.2.errors.quarantine ++ [(slice, way, s.tick + r.1, spare)] } }
    (4 + (if spare then 8 else 64), s.modRod slice fun q => { q with slice := { q.slice with spareUsed := true } })

/-- Is the containment of a line under way (R400)? -/
def Errors.containing (e : Errors) (c : Nat × Nat × Nat) : Bool :=
  e.retiring.any (fun r => r.1 == c.1 / 512) || e.quarantine.any fun q => q.1 == c.2.1 && q.2.1 == c.2.2

/-- Is a line contained already, so that a further error in it is part of that (R400)? -/
def State.contained (s : State) (line : Nat) : Bool :=
  s.errors.contained.any fun c => c.1 == line && s.errors.containing c

/-- The containment of a line begins. -/
def State.beginContain (s : State) (line slice way : Nat) : State :=
  { s with errors := { s.errors with contained := (line, slice, way) :: s.errors.contained } }

/-- Containments that have ended are forgotten. -/
def State.endContain (s : State) : State :=
  { s with errors := { s.errors with contained := s.errors.contained.filter s.errors.containing } }

/-- A context is ended by an error, if it is live and not ending; answers how the error's record names it (R392, R396). -/
def State.endNamed (s : State) (asid source line : Nat) (eng : Option Nat := none) : (Nat × Bool) × State :=
  let c := s.ctx asid
  ((s.ctxNum asid, s.endsNow asid), if c.live && !c.ending then s.endOwner asid source line eng else s)

/-- An uncorrectable error in a DRAM granule (Table 21-2): the line is poisoned and its page retired. -/
def State.containDram (s : State) (line ia : Nat) : State :=
  if s.contained line then s
  else
    let s := s.markDram line true
    let (a, s) := s.startRetire (line / 512)
    (s.beginContain line 64 0).logError
      { line := ia / 128 * 128, unit := stackOf (line * 128), source := 4, severity := 3, actions := a, domain := s.regs.domain.toNat }

/-- The planted error of a copy of a line, no longer there. -/
def State.unplant (s : State) (e : Nat × Bool × Bool) : State :=
  { s with errors := { s.errors with planted := s.errors.planted.filter (· != e) } }

/-- A read of the DRAM copy of a line detects a planted error (R399); answers the replay's ticks (R386). -/
def State.detectDram (s : State) (line ia : Nat) : Nat × State :=
  match s.errors.planted.find? fun e => e.1 == line && e.2.1 with
  | none => (0, s)
  | some e =>
    if e.2.2 then (0, (s.unplant e).containDram line ia)
    else (112, (s.unplant e).countCorrected true
      { line := ia / 128 * 128, unit := stackOf (line * 128), source := 4, domain := s.regs.domain.toNat })

/-- An uncorrectable error in an L2 cache line (Table 21-2). `ia` is the line's intermediate address. A clean line is fetched again, from
its DRAM copy, poison with it; answers that fetch's replay. `eng` is the token of the engine operation that reads, if one does. -/
def State.containL2 (s : State) (slice : Nat) (l : L2Line) (ia : Nat) (eng : Option Nat := none) : Nat × State :=
  let base : ErrRec := { line := ia / 128 * 128, unit := slice, way := l.way, source := 2, domain := s.regs.domain.toNat }
  if s.contained l.line then (0, s)
  else if !l.dirty then
    let r := ((s.logError { base with severity := 1 }).countMove l.line ia s.regs.domain.toNat).detectDram l.line ia
    (r.1, r.2.markSlice slice l.line (r.2.errors.poison.contains l.line))
  else
    let hold := fun s : State =>
      let r := (s.markSlice slice l.line true).startRetire (l.line / 512)
      let q := r.2.startQuarantine slice l.way
      (r.1 + q.1, q.2.beginContain l.line slice l.way)
    match l.tag with
    | some t =>
      if t.fw then (0, s.packageCheck 7 (ia / 128 * 128) slice l.way)
      else
        let r := hold s
        if t.remote && t.dom != s.regs.domain then
          let s := { r.2 with errors := { r.2.errors with reports := r.2.errors.reports ++ [(t.dom.toNat, t.asid, ia / 128 * 128)] } }
          (0, s.logError { base with owner := t.asid, severity := 2, actions := r.1, domain := t.dom.toNat })
        else
          let e := r.2.endNamed t.asid 2 ia eng
          let s := if e.1.2 then { e.2 with errors := { e.2.errors with lostBy := (l.line, t.asid) :: e.2.errors.lostBy } } else e.2
          (0, s.logError { base with severity := 2, actions := r.1, named := [e.1] })
    | none =>
      let r := hold s
      (0, r.2.logError { base with severity := 3, actions := r.1 })

/-- A read of the L2 or the DRAM copy of a line detects a planted error (R399); answers the DRAM replay's ticks (R386). -/
def State.detect (s : State) (line : Nat) (dram : Bool) (ia : Nat) (eng : Option Nat := none) : Nat × State :=
  if dram then s.detectDram line ia
  else match s.errors.planted.find? fun e => e.1 == line && !e.2.1 with
  | none => (0, s)
  | some e =>
    let s := s.unplant e
    let slice := homeSlice (line * 128)
    let held := (s.rod slice).slice.lines.find? fun l => l.line == line
    if e.2.2 then
      match held with
      | some l => s.containL2 slice l ia eng
      | none => (0, s.containDram line ia)
    else (0, s.countCorrected false
      { line := ia / 128 * 128, unit := slice, way := (held.map (·.way)).getD 0, source := 2, domain := s.regs.domain.toNat })

/-- A write to the copy of the armed line that TARGET names, in its home slice or in DRAM, plants the error and clears ARM (R399). -/
def State.plant (s : State) (line ia : Nat) (dram : Bool) : State :=
  let e := s.errors.errinj
  if rbit e 63 && rbit e 61 == dram && rfield e 7 45 == ia / 128 % 2 ^ 45 then
    { s with errors := { s.errors with
        errinj := e &&& 0x7FFFFFFFFFFFFFFF#64,
        planted := (line, dram, rbit e 62) :: s.errors.planted } }
  else s

/-- A copy of a line is written whole: an error that stood in it is gone. -/
def State.freshCopy (s : State) (line : Nat) (dram : Bool) : State :=
  { s with errors := { s.errors with planted := s.errors.planted.filter fun e => !(e.1 == line && e.2.1 == dram) } }

/-- The intermediate address of a DRAM line under the translations in force; its offset where none maps it. -/
def State.lineIa (s : State) (line : Nat) : Nat :=
  let d := s.regs.domain.toNat * 2 ^ 48
  match s.pm.inForce.find? fun e => e.2.toNat % 2 ^ 23 == line / 512 with
  | some e => d + e.1 * 65536 + line % 512 * 128
  | none => d + line * 128

/-- A read of a core, or of an engine operation of it with a token, that returned zeros for the lost `line` (R390): a nonfatal
MACHINE_CHECK, and the counts of ERRSTAT, but for the context that the loss has ended. -/
def State.poisonRead (s : State) (core line ia : Nat) (eng : Option Nat := none) : State :=
  if s.lostTo core line then s
  else
    let s := s.modCoreAt core fun c => c.modArch fun a =>
      let n := Nat.min (rfield a.ctl.errstat 16 32 + 1) (2 ^ 32 - 1)
      { a with ctl := { a.ctl with errstat := BitVec.ofNat 64 (n * 65536 + 1) } }
    s.pendTrap core 1 (mcDetail false 5 ia eng.isSome (eng.getD 0))

/-- The lines of a frame are read: errors in their DRAM copies are found (R389). -/
def State.readFrame (s : State) (frame : Nat) : State :=
  (s.errors.planted.filter fun e : Nat × Bool × Bool => e.1 / 512 == frame && e.2.1).foldl
    (fun (s : State) (e : Nat × Bool × Bool) => (s.detect e.1 true (s.lineIa e.1)).2) s

/-- ERRINJ_WRITE (Table 21-10): a write replaces an armed request. -/
def execErrinjWrite (v : BitVec 64) (s : State) : Out :=
  .next { s with errors := { s.errors with errinj := v &&& 0xE00FFFFFFFFFFF80#64 } }

/-- REMOTE_ERROR_REPORT (R397): a record from another package names a context of this one, which ends by R392. -/
def execRemoteErrorReport (asid line : Nat) (s : State) : Out :=
  let c := s.ctx asid
  if c.live && !c.ending then .next (s.endOwner asid 2 line) else .next s

end Sys2Proof.Machine
end

