-- ==== Sys2Proof/Machine/Num.lean ====
section
/-!
DEFINITION. The number formats of "Number Formats and the Order of Sums": decoding, rounding (R28, R29), the dual-base
blocks (R30 to R34), conversion (R35, R36) and exact sums (R37 to R39).
A finite value is held exactly as a sign and a count of 2^-149, which every value of every element type is a multiple of.
-/
namespace Sys2Proof.Machine

/-- Exact values: canonical NaN, an infinity, or `(-1)^neg * n * 2^-149`. -/
inductive FVal where
  | nan
  | inf (neg : Bool)
  | fin (neg : Bool) (n : Nat)
  deriving DecidableEq, Repr, Inhabited

/-- The floating-point formats of Table 2-2. -/
inductive FFmt where
  | fp16 | bf16 | fp32
  deriving DecidableEq, Repr, Inhabited

/-- Width in bits (Table 2-2). -/
def FFmt.width : FFmt → Nat
  | .fp16 => 16 | .bf16 => 16 | .fp32 => 32
/-- Fraction bits (Table 2-2). -/
def FFmt.frac : FFmt → Nat
  | .fp16 => 10 | .bf16 => 7 | .fp32 => 23
/-- Bias (Table 2-2). -/
def FFmt.bias : FFmt → Nat
  | .fp16 => 15 | .bf16 => 127 | .fp32 => 127
/-- The all-ones exponent. -/
def FFmt.expMax (f : FFmt) : Nat := 2 * f.bias + 1
/-- Canonical NaN (Table 2-2). -/
def FFmt.nan (f : FFmt) : Nat := f.expMax * 2 ^ f.frac + 2 ^ (f.frac - 1)
/-- +infinity. -/
def FFmt.infBits (f : FFmt) : Nat := f.expMax * 2 ^ f.frac
/-- The largest finite value's bits. -/
def FFmt.maxBits (f : FFmt) : Nat := f.infBits - 1
/-- The sign bit's weight. -/
def FFmt.signBit (f : FFmt) : Nat := 2 ^ (f.width - 1)

/-- The value of a pattern (R26, R27); every NaN pattern is the one NaN. -/
def FFmt.decode (f : FFmt) (bits : Nat) : FVal :=
  let neg := decide (bits % 2 ^ f.width ≥ f.signBit)
  let e := bits / 2 ^ f.frac % (f.expMax + 1)
  let m := bits % 2 ^ f.frac
  if e = f.expMax then (if m = 0 then .inf neg else .nan)
  else
    let k := (if e = 0 then 1 else e) + 149 - f.bias - f.frac
    .fin neg ((if e = 0 then m else m + 2 ^ f.frac) * 2 ^ k)

/-- `num / den` rounded to an integer in mode `m`, for a value of sign `neg` (R28). -/
def roundNat (m : RMode) (neg : Bool) (num den : Nat) : Nat :=
  let q := num / den
  let r := num % den
  match m with
  | .rne => if 2 * r > den || (2 * r == den && q % 2 == 1) then q + 1 else q
  | .rtz => q
  | .rdn => if neg && r != 0 then q + 1 else q
  | .rup => if !neg && r != 0 then q + 1 else q

/-- `floor(log2(num / den))` plus 1024, for `num` and `den` nonzero and the quotient at least 2^-1024. -/
def log2Off (num den : Nat) : Nat := Nat.log2 (num * 2 ^ 1024 / den)

/-- `(-1)^neg * num / den`, rounded to format `f` (R28), with its flags (R29). A zero keeps its sign. -/
def FFmt.round (f : FFmt) (m : RMode) (neg : Bool) (num den : Nat) : Nat × Flags :=
  let s := if neg then f.signBit else 0
  if num = 0 then (s, 0)
  else
    let e := log2Off num den                    -- offset by 1024
    let emin := 1024 + 1 - f.bias               -- exponent of the smallest normal, offset by 1024
    let at' := fun (k : Nat) => roundNat m neg (num * 2 ^ 1024) (den * 2 ^ k)
    let mu := at' (e - f.frac)                  -- unbounded exponent range
    let full := 2 ^ (f.frac + 1)
    let emax := 1024 + f.bias
    let overrun := decide (e > emax) || (decide (e = emax) && mu == full)
    let tiny := decide (e < emin) && !(decide (e + 1 = emin) && mu == full)
    if overrun then
      let big := match m with
        | .rne => f.infBits
        | .rtz => f.maxBits
        | .rdn => if neg then f.infBits else f.maxBits
        | .rup => if neg then f.maxBits else f.infBits
      (s + big, roundFlags true true false)
    else
      let k := Nat.max e emin - f.frac
      let mr := at' k
      let bexp := Nat.max e emin - emin + 1
      let inexact := mr * 2 ^ k * den != num * 2 ^ 1024
      (s + (bexp - 1) * 2 ^ f.frac + mr, roundFlags inexact false tiny)

/-- A value rounded to a format (R28, R29); NaN is the canonical NaN and raises nothing (R27). -/
def FFmt.encode (f : FFmt) (m : RMode) : FVal → Nat × Flags
  | .nan => (f.nan, 0)
  | .inf neg => ((if neg then f.signBit else 0) + f.infBits, 0)
  | .fin neg n => f.round m neg n (2 ^ 149)

/-- The signed count of 2^-149 of a finite value; 0 for the others. -/
def FVal.toInt : FVal → Int
  | .fin neg n => if neg then -(n : Int) else n
  | _ => 0

/-- The sign. -/
def FVal.neg : FVal → Bool
  | .nan => false
  | .inf b => b
  | .fin b _ => b

/-- Is it NaN? -/
def FVal.isNan : FVal → Bool
  | .nan => true
  | _ => false

/-- Is it an infinity? -/
def FVal.isInf : FVal → Bool
  | .inf _ => true
  | _ => false

/-- Is it a zero of either sign? -/
def FVal.isZero : FVal → Bool
  | .fin _ n => n == 0
  | _ => false

/-- Sign cleared. -/
def FVal.abs : FVal → FVal
  | .nan => .nan
  | .inf _ => .inf false
  | .fin _ n => .fin false n

/-- Sign inverted; NaN stays NaN. -/
def FVal.flip : FVal → FVal
  | .nan => .nan
  | .inf b => .inf (!b)
  | .fin b n => .fin (!b) n

/-- Order of two values that are not NaN, with the zeros equal. -/
def FVal.lt (a b : FVal) : Bool :=
  match a, b with
  | .nan, _ => false
  | _, .nan => false
  | .inf na, .inf nb => na && !nb
  | .inf na, .fin _ _ => na
  | .fin _ _, .inf nb => !nb
  | .fin _ _, .fin _ _ => decide (a.toInt < b.toInt)

/-- Equality of values that are not NaN, with the zeros equal. -/
def FVal.eqv (a b : FVal) : Bool := !a.isNan && !b.isNan && !a.lt b && !b.lt a

/-- The order of VMIN, VMAX and the reductions: −0 ranks below +0 (Table 9-1, R181). -/
def FVal.rankLt (a b : FVal) : Bool :=
  a.lt b || (a.isZero && b.isZero && a.neg && !b.neg)

/-- A product of two values: an exact count of 2^-298 with a sign, an infinity, or NaN; `inv` marks 0 × ∞ (R27, R38). -/
structure Prod where
  val : FVal
  inv : Bool
  deriving DecidableEq, Repr, Inhabited

/-- The exact product; a finite result counts 2^-298. -/
def FVal.mul (a b : FVal) : Prod :=
  let s := a.neg != b.neg
  match a, b with
  | .nan, _ => ⟨.nan, false⟩
  | _, .nan => ⟨.nan, false⟩
  | .inf _, .inf _ => ⟨.inf s, false⟩
  | .inf _, .fin _ n => if n = 0 then ⟨.nan, true⟩ else ⟨.inf s, false⟩
  | .fin _ n, .inf _ => if n = 0 then ⟨.nan, true⟩ else ⟨.inf s, false⟩
  | .fin _ n, .fin _ k => ⟨.fin s (n * k), false⟩

/-- A value as a product with one: its count of 2^-298. -/
def FVal.wide : FVal → FVal
  | .fin b n => .fin b (n * 2 ^ 149)
  | v => v

/-- The exact sum of terms that count 2^-298, rounded once to `f`, with the treatment of special values of R38:
a NaN term gives NaN with no flag; an invalid product, or infinities of both signs, give NaN with NV; an infinity gives
that infinity. An exact zero is −0 only when every term is −0, or when the mode is RDN and the terms are not all +0. -/
def sumRound (f : FFmt) (m : RMode) (terms : List Prod) : Nat × Flags :=
  if terms.any (fun t => t.val.isNan && !t.inv) then (f.nan, 0)
  else if terms.any (·.inv) then (f.nan, flagNV)
  else
    let pinf := terms.any (fun t => t.val == .inf false)
    let ninf := terms.any (fun t => t.val == .inf true)
    if pinf && ninf then (f.nan, flagNV)
    else if pinf then (f.infBits, 0)
    else if ninf then (f.signBit + f.infBits, 0)
    else
      let z : Int := terms.foldl (fun acc t => acc + t.val.toInt) 0
      if z = 0 then
        let neg := match m with
          | .rdn => terms.any (·.val.neg)
          | _ => terms.all (·.val.neg)
        (if neg then f.signBit else 0, 0)
      else f.round m (decide (z < 0)) z.natAbs (2 ^ 298)

/-- A sum of the matrix engine (R38): as `sumRound`, but a product 0 × ∞, or infinities of both signs, raise NV beside a
NaN operand too. -/
def matSum (m : RMode) (terms : List Prod) : Nat × Flags :=
  let bad := terms.any (·.inv) || (terms.any (fun t => t.val == .inf false) && terms.any (fun t => t.val == .inf true))
  if bad then (FFmt.fp32.nan, flagNV) else sumRound .fp32 m terms

/-- `RNE(a + b)` (R172). -/
def fadd (f : FFmt) (a b : FVal) : Nat × Flags :=
  sumRound f .rne [⟨a.wide, false⟩, ⟨b.wide, false⟩]

/-- `RNE(a × b)` (R172). -/
def fmul (f : FFmt) (a b : FVal) : Nat × Flags := sumRound f .rne [a.mul b]

/-- `RNE(d + a × b)`, one rounding (R172). -/
def ffma (f : FFmt) (d a b : FVal) : Nat × Flags :=
  sumRound f .rne [⟨d.wide, false⟩, a.mul b]

/-- Integer nearest `√n` from below, by at most `fuel` bits from bit `fuel - 1` down. -/
def isqrtGo (n : Nat) : Nat → Nat → Nat
  | 0, r => r
  | k + 1, r =>
    let r' := r + 2 ^ k
    if r' * r' ≤ n then isqrtGo n k r' else isqrtGo n k r

/-- `floor(√n)` for `n < 2^1024`. -/
def isqrt (n : Nat) : Nat := isqrtGo n 512 0

/-- The correctly rounded square root of `n * 2^-149`, `n` nonzero (Table 9-7). The root is taken of `n * 2^(149 + 512)`
in units of 2^-405, and a remainder is kept as one more half unit, which no rounding to 24 bits can mistake. -/
def sqrtRound (f : FFmt) (n : Nat) : Nat × Flags :=
  let v := n * 2 ^ 661
  let r := isqrt v
  let sticky := if r * r = v then 0 else 1
  f.round .rne false (2 * r + sticky) (2 ^ 406)

/-! ### Element types -/


/-- The floating format of an element type (R26). -/
def fmtOf : ElemTy → Option FFmt
  | .fp16 => some .fp16 | .bf16 => some .bf16 | .fp32 => some .fp32
  | _ => none

/-- Element width in bits (Table 2-1). -/
def widthOf : ElemTy → Nat
  | .int8 => 8 | .uint8 => 8 | .int16 => 16 | .int32 => 32 | .fp16 => 16 | .bf16 => 16 | .fp32 => 32
  | .db8 => 8 | .db4 => 4

/-- Elements per row, E (Table 2-1, R170). -/
def countOf (t : ElemTy) : Nat := 2048 / widthOf t

/-- Is it an integer type? -/
def isIntTy : ElemTy → Bool
  | .int8 => true | .uint8 => true | .int16 => true | .int32 => true
  | _ => false

/-- Is it a floating type? -/
def isFloatTy (t : ElemTy) : Bool := (fmtOf t).isSome

/-- Is it DB8 or DB4? -/
def isDbTy : ElemTy → Bool
  | .db8 => true | .db4 => true
  | _ => false

/-- An integer or floating type, which arithmetic accepts (R171). -/
def isArithTy (t : ElemTy) : Bool := !isDbTy t

/-- The element type of a block format. -/
def dbElemTy : DbTy → ElemTy
  | .db8 => .db8 | .db4 => .db4

/-- Least value of an integer type (R25). -/
def intMin : ElemTy → Int
  | .int8 => -128 | .int16 => -32768 | .int32 => -2147483648
  | _ => 0

/-- Greatest value of an integer type (R25). -/
def intMax : ElemTy → Int
  | .int8 => 127 | .uint8 => 255 | .int16 => 32767 | .int32 => 2147483647
  | _ => 0

/-- Value of a pattern under an integer type (R25). -/
def intVal (t : ElemTy) (bits : Nat) : Int :=
  let w := widthOf t
  let b := bits % 2 ^ w
  match t with
  | .uint8 => b
  | _ => if b ≥ 2 ^ (w - 1) then (b : Int) - 2 ^ w else b

/-- Pattern of an integer of `w` bits (R8 wrap). -/
def wrapBits (w : Nat) (v : Int) : Nat := (v % (2 ^ w : Int)).toNat

/-- `sat(v, T)` with its flag (R8, R25). -/
def satInt (t : ElemTy) (v : Int) : Nat × Flags :=
  if v < intMin t then (wrapBits (widthOf t) (intMin t), flagSAT)
  else if v > intMax t then (wrapBits (widthOf t) (intMax t), flagSAT)
  else (wrapBits (widthOf t) v, 0)

/-- Element `i` of a row under a type (R24). -/
def rowElem (t : ElemTy) (r : Row) (i : Nat) : Nat :=
  (r.extractLsb' (i * widthOf t) (widthOf t)).toNat

/-- A row from its elements in ascending order (R24). -/
def packElems (w : Nat) (es : List Nat) : Row :=
  BitVec.ofNat 2048 (es.foldr (fun e acc => acc * 2 ^ w + e % 2 ^ w) 0)

/-- The elements of a row. -/
def rowElems (t : ElemTy) (r : Row) : List Nat := (List.range (countOf t)).map (rowElem t r)

/-! ### Dual-base blocks -/

end Sys2Proof.Machine

namespace Sys2Proof

/-- Bias of a block format (Table 2-4). -/
def DbTy.bias : DbTy → Nat
  | .db8 => 132 | .db4 => 128
/-- Largest magnitude (R33). -/
def DbTy.mmax : DbTy → Nat
  | .db8 => 63 | .db4 => 3
/-- `off` of R33. -/
def DbTy.off : DbTy → Nat
  | .db8 => 127 | .db4 => 128
/-- `gap` of R33. -/
def DbTy.gap : DbTy → Nat
  | .db8 => 4 | .db4 => 2
/-- Bits of the magnitude (Table 2-4). -/
def DbTy.mbits : DbTy → Nat
  | .db8 => 6 | .db4 => 2
/-- A code from sign, selector and magnitude (Table 2-4). -/
def DbTy.pack (f : DbTy) (s : Bool) (sel : Nat) (m : Nat) : Nat :=
  (if s then 2 ^ (f.mbits + 1) else 0) + sel * 2 ^ f.mbits + m

end Sys2Proof

namespace Sys2Proof.Machine

/-- The block format of an element type. -/
def dbOf : ElemTy → Option DbTy
  | .db8 => some .db8 | .db4 => some .db4
  | _ => none

/-- `dbdecode` (R32). -/
def dbDecode (f : DbTy) (code ehi elo : Nat) : FVal :=
  if ehi = 0xFF || elo = 0xFF then .nan
  else
    let s := code / 2 ^ (f.mbits + 1) % 2 = 1
    let e := if code / 2 ^ f.mbits % 2 = 1 then elo else ehi
    let m := code % 2 ^ f.mbits
    if e = 0 || m = 0 then .fin s 0
    else .fin s (m * 2 ^ (e + 149 - f.bias))

/-- The exponent lines of R33: the pair (E_hi, E_lo) for a block of values, with its NaN and all-zero cases. -/
def dbExps (f : DbTy) (xs : List FVal) : Nat × Nat :=
  if xs.any (·.isNan) then (0xFF, 0xFF)
  else
    let m := xs.foldl (fun a v => match v with | .fin _ n => Nat.max a n | _ => a) 0
    if m = 0 && !xs.any (·.isInf) then (0, 0)
    else
      let ehi := if m = 0 then 254
        else Nat.min 254 (Nat.max 1 (Nat.log2 m + f.off - 149))
      (ehi, Nat.min 254 (Nat.max 1 (ehi - f.gap)))

/-- Round `n * 2^-149` over `2^(e - bias)` to an integer, ties to even (R33). -/
def dbQuot (f : DbTy) (n e : Nat) : Nat := roundNat .rne false (n * 2 ^ f.bias) (2 ^ (149 + e))

/-- Does `m * 2^(e - bias)` differ from `n * 2^-149`? -/
def dbInexact (f : DbTy) (n m e : Nat) : Bool := m * 2 ^ (149 + e) != n * 2 ^ f.bias

/-- The per-element steps of R33 under a pair; an E_lo of 0 is never chosen for a nonzero magnitude (R178). DESIGN CHOICE: the magnitude is
that of the element, so an element whose code rounds to 0 counts too (log 22). -/
def dbElem (f : DbTy) (ehi elo : Nat) (x : FVal) : Nat × Flags :=
  match x with
  | .nan => (0, flagNV)
  | .inf s => (f.pack s 0 f.mmax, flagSAT ||| flagNX)
  | .fin s n =>
    let ql := dbQuot f n elo
    if ql ≤ f.mmax && (elo != 0 || n == 0) then
      (f.pack s 1 ql, flagIf (dbInexact f n ql elo) flagNX)
    else
      let qh := dbQuot f n ehi
      let m := Nat.min qh f.mmax
      (f.pack s 0 m, flagIf (qh > f.mmax) flagSAT ||| flagIf (dbInexact f n m ehi) flagNX)

/-- Quantise a block under a given pair (R178, and R33 with the pair it forms). -/
def dbQuantWith (f : DbTy) (ehi elo : Nat) (xs : List FVal) : List Nat × Flags :=
  if ehi = 0xFF || elo = 0xFF then (xs.map fun _ => 0, 0)
  else
    let rs := xs.map fun x =>
      if x.isNan then (0, flagNV)
      else if ehi = 0 then (f.pack x.neg 0 0, flagIf (!x.isZero) flagNX)
      else dbElem f ehi elo x
    (rs.map (·.1), flagsAll (rs.map (·.2)))

/-- `quantise` (R33): the pair, the codes and the flags. -/
def quantise (f : DbTy) (xs : List FVal) : (Nat × Nat) × List Nat × Flags :=
  let p := dbExps f xs
  (p, dbQuantWith f p.1 p.2 xs)

/-! ### Conversion of one element -/

/-- A finite value rounded to an integral value, as a natural number, and whether it changed (R28, R36, R176). -/
def roundToInt (m : RMode) (neg : Bool) (n : Nat) : Nat × Bool :=
  let q := roundNat m neg n (2 ^ 149)
  (q, q * 2 ^ 149 != n)

/-- A floating value to an integer type (R36). -/
def floatToInt (t : ElemTy) (m : RMode) : FVal → Nat × Flags
  | .nan => (0, flagNV)
  | .inf neg => (wrapBits (widthOf t) (if neg then intMin t else intMax t), flagSAT)
  | .fin neg n =>
    let (q, ch) := roundToInt m neg n
    let r := satInt t (if neg then -(q : Int) else q)
    (r.1, r.2 ||| flagIf ch flagNX)

/-- An integer to a floating format (Table 2-6); zero converts to +0. -/
def intToFloat (f : FFmt) (m : RMode) (v : Int) : Nat × Flags :=
  f.round m (decide (v < 0)) v.natAbs 1

/-- One element from one type to another that is neither DB8 nor DB4 (Table 2-6). -/
def cvtElem (src dst : ElemTy) (m : RMode) (bits : Nat) : Nat × Flags :=
  if src = dst then (bits, 0)
  else
    match fmtOf src, fmtOf dst with
    | some fs, some fd => fd.encode m (fs.decode bits)
    | some fs, none => floatToInt dst m (fs.decode bits)
    | none, some fd => intToFloat fd m (intVal src bits)
    | none, none => satInt dst (intVal src bits)

/-- Is the pair in Table 2-6 above its last row? -/
def cvtPair (src dst : ElemTy) : Bool :=
  src == dst || (isArithTy src && isArithTy dst) || (isDbTy src && isFloatTy dst) || (isFloatTy src && isDbTy dst)

/-- The value of a pattern of an integer or floating type. -/
def elemVal (t : ElemTy) (bits : Nat) : FVal :=
  match fmtOf t with
  | some f => f.decode bits
  | none => let v := intVal t bits; .fin (decide (v < 0)) (v.natAbs * 2 ^ 149)

end Sys2Proof.Machine
end

