-- ==== Sys2Proof/Machine/Operands.lean ====
section
/-!
DEFINITION. The operand forms of the slot instructions: sign extension, guards, vector operands with their
configurations and masks (R99, R139, R170, R174), and the shapes shared by the groups.
-/
namespace Sys2Proof.Machine

/-- `sext(f)` to 64 bits (R139). -/
def sext64 {w : Nat} (v : BitVec w) : Word := v.signExtend 64
/-- `f` zero-extended to 64 bits. -/
def zext64 {w : Nat} (v : BitVec w) : Word := v.zeroExtend 64
/-- 1 or 0. -/
def boolWord (b : Bool) : Word := if b then 1 else 0

/-- A register-register form: `x[xd] := F(x[xa], x[xb])` under guard `pg`, with a bound (R140). -/
def rrForm (bound : Nat) (f : Word → Word → Word) (pg : BitVec 3) (xd xa xb : BitVec 5) (s : State) : Out :=
  let c := s.me
  if c.rdP pg then
    let v := f (s.rx xa) (s.rx xb)
    .next (s.onMe fun c => if bound = 1 then c.putX xd v else c.putXLate bound xd v)
  else .next s

/-- A result computed from the state before the bundle, written to `x[xd]` with bound 1. -/
def xForm (xd : BitVec 5) (v : Word) (s : State) : Out := .next (s.onMe fun c => c.putX xd v)

/-- As `xForm`, for a C-class slot, whose register is interlocked (R127). -/
def xHeld (xd : BitVec 5) (v : Word) (s : State) : Out := .next (s.onMe fun c => c.putXHeld false xd v)

/-- Tile of a vector operand (R99). -/
def vTile (v : BitVec 6) : BitVec 4 := v.extractLsb' 2 4
/-- Cursor of a vector operand (R99). -/
def vCur (v : BitVec 6) : BitVec 2 := v.extractLsb' 0 2

/-- A vector operand as read: its tile as seen, its row index, and the row with padded rows reading zero (R170). -/
structure VOp where
  tile : Tile
  idx : Nat
  row : Row
  deriving DecidableEq, Repr, Inhabited

/-- Rows of a tile that are not padded: 64 for an unconfigured tile (R166). -/
def Tile.rowCount (t : Tile) : Nat := if t.conf then t.nrows else 64

/-- Is the tile configured as `ty`? -/
def Tile.isTy (t : Tile) (ty : ElemTy) : Bool := t.conf && t.ty == ty

/-- Vector operand `v` of core `c` in slot `slot` (R99, R170). -/
def Core.rdV (c : Core) (n slot : Nat) (v : BitVec 6) : VOp :=
  let i := (c.rdC (vCur v)).toNat
  let t := c.rdTile n slot (vTile v) i
  ⟨t, i, if i < t.rowCount then t.rows.getD i 0 else 0⟩

/-- Vector operand `v` of the acting core. -/
def State.rv (s : State) (v : BitVec 6) : VOp := s.me.rdV s.act s.slot v

/-- All the bytes of a row. -/
def fullMask : Row := BitVec.allOnes 2048

/-- The mask of elements `lo` to `lo + n - 1` of width `w`. -/
def elemMask (w lo n : Nat) : Row := BitVec.ofNat 2048 ((2 ^ (w * n) - 1) * 2 ^ (w * lo))

/-- A V or F result: the tile is busy until the bound (R128), the bytes under `mask` of the row are written unless the
row is padded (R170), and the flags are raised when it lands (R43), of a padded row too (log 22). -/
def writeV (bound : Nat) (vd : BitVec 6) (d : VOp) (mask v : Row) (fl : Flags) (s : State) (hist : Bool := false) : State :=
  s.onMe fun c =>
    let c := c.markBusy bound (vTile vd)
    let c := if d.idx < d.tile.rowCount then c.putRow s.act s.slot bound (vTile vd) d.idx mask v hist else c
    c.raise bound fl

/-- The mismatch fate (R170): every byte under `mask` of a configured destination is written zero, nothing is written
to an unconfigured one, and NV is raised. -/
def mismatch (bound : Nat) (vd : BitVec 6) (d : VOp) (mask : Row) (s : State) (hist : Bool := false) : State :=
  if d.tile.conf then writeV bound vd d mask 0 flagNV s hist
  else s.onMe fun c => (c.markBusy bound (vTile vd)).raise bound flagNV

/-- The whole row of `vd` computed element by element, with the flags of every element (R171). -/
def mapRow (ty : ElemTy) (f : Nat → Nat × Flags) : Row × Flags :=
  let rs := (List.range (countOf ty)).map f
  (packElems (widthOf ty) (rs.map (·.1)), flagsAll (rs.map (·.2)))

end Sys2Proof.Machine
end

