-- ==== Sys2Proof/Machine/Lasts.lean ====
section
/-!
DEFINITION. Lasts (R51 to R53): their fields, the elements and blocks they describe, and the bytes that engines read and
write through them.
-/
namespace Sys2Proof.Machine

/-- A last (Table 3-3): eight doublewords. -/
abbrev Last := BitVec 512

/-- Bits `lo` to `lo + n - 1` of doubleword `d` of a last. -/
def Last.fld (l : Last) (d lo n : Nat) : Nat := (l.extractLsb' (64 * d + lo) n).toNat
/-- FMT. -/
def Last.fmt (l : Last) : Option ElemTy := ElemTy.ofCode (BitVec.ofNat 4 (l.fld 0 0 4))
/-- RANK. -/
def Last.rank (l : Last) : Nat := l.fld 0 4 3
/-- PARAM. -/
def Last.param (l : Last) : Bool := l.fld 0 7 1 = 1
/-- SPACE. -/
def Last.space (l : Last) : Nat := l.fld 0 8 2
/-- SLICE. -/
def Last.slice (l : Last) : Nat := l.fld 0 10 6
/-- RO. -/
def Last.ro (l : Last) : Bool := l.fld 0 16 1 = 1
/-- PATCH. -/
def Last.patch (l : Last) : Bool := l.fld 0 17 1 = 1
/-- SRC. -/
def Last.src (l : Last) : Bool := l.fld 0 18 1 = 1
/-- REPLAY. -/
def Last.replay (l : Last) : Bool := l.fld 0 19 1 = 1
/-- BASE. -/
def Last.base (l : Last) : Nat := l.fld 1 0 64
/-- EXTk. -/
def Last.ext (l : Last) (k : Nat) : Nat := l.fld 2 (16 * k) 16
/-- STRk, k from 1 to 3. -/
def Last.str (l : Last) (k : Nat) : Nat := match k with
  | 1 => l.fld 3 0 32
  | 2 => l.fld 3 32 32
  | 3 => l.fld 4 0 32
  | _ => 0
/-- SCALE. -/
def Last.scale (l : Last) : Nat := l.fld 5 0 64
/-- IABASE. -/
def Last.iaBase (l : Last) : Nat := l.fld 6 0 52
/-- IALEN. -/
def Last.iaLen (l : Last) : Nat := l.fld 7 0 52

/-- The type of a last; reserved codes never stand in a launched image (R50). -/
def Last.ty (l : Last) : ElemTy := l.fmt.getD .int8
/-- Element width in bits. -/
def Last.width (l : Last) : Nat := widthOf l.ty
/-- Number of elements (R252). -/
def Last.count (l : Last) : Nat := l.ext 0 * l.ext 1 * l.ext 2 * l.ext 3

/-- Footprint in bytes (R52): a DB4 row of EXT0 elements takes half a byte each. -/
def Last.footprint (l : Last) : Nat :=
  l.width * l.ext 0 / 8 + l.str 1 * (l.ext 1 - 1) + l.str 2 * (l.ext 2 - 1) + l.str 3 * (l.ext 3 - 1)

/-- Bytes of the exponent plane (R52). -/
def Last.planeBytes (l : Last) : Nat := if isDbTy l.ty then 2 * l.count / 32 else 0

/-- Bit offset of the element of linear index `j` from the first byte of the footprint (R52). -/
def Last.bitOff (l : Last) (j : Nat) : Nat :=
  let i0 := j % l.ext 0
  let j1 := j / l.ext 0
  let i1 := j1 % l.ext 1
  let j2 := j1 / l.ext 1
  l.width * i0 + 8 * (l.str 1 * i1 + l.str 2 * (j2 % l.ext 2) + l.str 3 * (j2 / l.ext 2))

/-- The last `d` of the context that holds a core. -/
def State.last (s : State) (core : Nat) (d : BitVec 6) : Last :=
  match s.asidOf core with
  | some a => (s.ctx a).lasts.getD d.toNat 0
  | none => 0

/-- Where a side's bytes lie: intermediate addresses, the core's scratchpad, or a slice's staging (R51, R252). -/
inductive Side where
  | mem
  | spad (core : Nat)
  | staging (slice : Nat)
  deriving DecidableEq, Repr, Inhabited

/-- The side of a last, for a core. -/
def Last.side (l : Last) (core : Nat) : Side :=
  match l.space with
  | 1 => .spad core
  | 2 => .staging l.slice
  | _ => .mem

/-- First byte of a last's footprint on its side. -/
def Last.start (l : Last) : Nat := if l.space = 0 then l.iaBase else l.base

/-- Scratchpad bytes of a core (R242). -/
def Core.spadSize (c : Core) : Nat := (3072 - c.l1kb) * 1024

/-- One byte of a side. A poisoned line reads zero (R390). -/
def State.sideByte (s : State) (sd : Side) (a : Nat) : Byte :=
  match sd with
  | .spad c => (s.core c).spad.read a
  | .staging sl => (s.rod sl).slice.staging.read a
  | .mem =>
    match s.iaLoc a false with
    | some l => if (match l with | .dram o _ _ => s.poisoned (o / 128) | _ => false) then 0 else (s.locBytes l 1).getD 0 0
    | none => 0

/-- `n` bytes of a side. -/
def State.sideBytes (s : State) (sd : Side) (a n : Nat) : List Byte := (List.range n).map fun i => s.sideByte sd (a + i)

/-- Bytes, each with its address, written to a memory in order. -/
def Mem.putCells (m : Mem) (cells : List (Nat × Byte)) : Mem := cells.foldl (fun (m : Mem) e => m.write e.1 e.2) m

/-- Bytes written to a core's scratchpad in one cycle, keeping what it held for the matrix operations that are reading it (R203). -/
def Core.spadPut (c : Core) (cells : List (Nat × Byte)) : Core :=
  { c with
    spad := c.spad.putCells cells,
    eng := { c.eng with mrun := c.eng.mrun.map fun r => { r with snaps := r.snaps ++ [c.spad] } } }

/-- Bytes from an address up, each with its address. -/
def cellsAt (a : Nat) (bs : List Byte) : List (Nat × Byte) := bs.zipIdx.map fun b => (a + b.2, b.1)

/-- Write of bytes from an address up to a core's scratchpad. -/
def Core.spadWrite (c : Core) (a : Nat) (bs : List Byte) : Core := c.spadPut (cellsAt a bs)

/-- Bytes with their addresses, by the 64-byte granules they lie in, in the order in which these are first met (R276). -/
def granulesOf (cells : List (Nat × Byte)) : List (Nat × List (Nat × Byte)) :=
  cells.foldl (fun (gs : List (Nat × List (Nat × Byte))) e =>
    if gs.any fun g => g.1 == e.1 / 64 then gs.map fun g => if g.1 == e.1 / 64 then (g.1, g.2 ++ [e]) else g
    else gs ++ [(e.1 / 64, [e])]) []

/-- Bytes of one granule of memory written at once (R276). A write into a poisoned line clears the poison (R390); a granule that is
not mapped for writing is not written. -/
def State.putGranule (s : State) (g : Nat × List (Nat × Byte)) : State :=
  match s.iaLoc (64 * g.1) true with
  | some (.dram o _ _) =>
    (s.clearPoison (o / 128)).putCells (g.2.map fun e => (o + e.1 % 64, e.2)) (s.tick + 2800)
  | some (.remote ia) => s.putCells (g.2.map fun e => (remoteKey ia + e.1 % 64, e.2)) (s.tick + 5600)
  | _ => s

/-- Bytes, each with its address, written to a side: in memory granule by granule, elsewhere all in one moment. -/
def State.putSideCells (s : State) (sd : Side) (cells : List (Nat × Byte)) : State :=
  match sd with
  | .spad c => s.modCore c fun co => co.spadPut cells
  | .staging sl => s.modRod sl fun r => { r with slice := { r.slice with staging := r.slice.staging.putCells cells } }
  | .mem => (granulesOf cells).foldl State.putGranule s

/-- Bytes written to a side, from an address up. -/
def State.putSide (s : State) (sd : Side) (a : Nat) (bs : List Byte) : State := s.putSideCells sd (cellsAt a bs)

/-- The code of element `j` of a last, read on its side. -/
def State.lastElem (s : State) (core : Nat) (l : Last) (j : Nat) : Nat :=
  let b := l.bitOff j
  let n := (b % 8 + l.width + 7) / 8
  leNat (s.sideBytes (l.side core) (l.start + b / 8) n) / 2 ^ (b % 8) % 2 ^ l.width

/-- The bytes that element `j` of a last takes when it is written, after those in `cells`. A DB4 element is half a byte; the other
half is kept. -/
def State.elemCells (s : State) (core : Nat) (l : Last) (cells : List (Nat × Byte)) (j v : Nat) : List (Nat × Byte) :=
  let b := l.bitOff j
  let a := l.start + b / 8
  if l.width < 8 then
    let old := (match cells.reverse.find? fun (e : Nat × Byte) => e.1 == a with
      | some e => e.2
      | none => s.sideByte (l.side core) a).toNat
    let lo := old % 2 ^ (b % 8)
    let hi := old / 2 ^ (b % 8 + l.width) * 2 ^ (b % 8 + l.width)
    cells ++ [(a, BitVec.ofNat 8 (hi + v % 2 ^ l.width * 2 ^ (b % 8) + lo))]
  else cells ++ cellsAt a (toLe (l.width / 8) v)

/-- The codes of `n` elements from `j`. -/
def State.lastElems (s : State) (core : Nat) (l : Last) (j n : Nat) : List Nat :=
  (List.range n).map fun i => s.lastElem core l (j + i)

/-- The bytes of elements from `j` on, written in order. -/
def State.elemsCells (s : State) (core : Nat) (l : Last) (j : Nat) (vs : List Nat) : List (Nat × Byte) :=
  (vs.zipIdx).foldl (fun cells v => s.elemCells core l cells (j + v.2) v.1) []

/-- Elements from `j` written in order. -/
def State.putElems (s : State) (core : Nat) (l : Last) (j : Nat) (vs : List Nat) : State :=
  s.putSideCells (l.side core) (s.elemsCells core l j vs)

/-- The intermediate address of a last's exponent plane, where the whole plane lies in one window that allows the use
(R53, R252). -/
def State.planeIa (s : State) (core : Nat) (l : Last) (write : Bool) : Option Nat :=
  (s.asidOf core).bind fun a => (s.ctx a).translate l.scale l.planeBytes (!write) write

/-- The exponent pair of block `b`: E_hi, then E_lo (R31). -/
def State.planePair (s : State) (ia b : Nat) : Nat × Nat :=
  ((s.sideByte .mem (ia + 2 * b)).toNat, (s.sideByte .mem (ia + 2 * b + 1)).toNat)

/-- The pages of `n` bytes from an intermediate address. -/
def pagesOf (ia n : Nat) : List Nat :=
  if n = 0 then [] else (List.range ((ia + n - 1) / 65536 + 1 - ia / 65536)).map fun i => ia / 65536 + i

/-- The 128-byte lines that runs of bytes touch. -/
def linesOf (runs : List (Nat × Nat)) : List Nat :=
  (runs.flatMap fun r => if r.2 = 0 then [] else
    (List.range ((r.1 + r.2 - 1) / 128 + 1 - r.1 / 128)).map fun i => r.1 / 128 + i).eraseDups

/-- The DRAM line of a line of intermediate addresses, if it is mapped here. -/
def State.dramLine (s : State) (ln : Nat) (write : Bool) : Option Nat :=
  match s.iaLoc (ln * 128) write with
  | some (.dram o _ _) => some (o / 128)
  | _ => none

/-- The bytes, as intermediate addresses, that a last's elements lie on, as runs of one row of dimension 0 (R52, R255). -/
def Last.runs (l : Last) : List (Nat × Nat) :=
  (List.range (l.ext 1 * l.ext 2 * l.ext 3)).map fun r =>
    (l.start + l.bitOff (r * l.ext 0) / 8, l.width * l.ext 0 / 8)

/-- Do two runs of bytes share one? -/
def runsMeet (a b : Nat × Nat) : Bool := decide (a.1 < b.1 + b.2) && decide (b.1 < a.1 + a.2)

end Sys2Proof.Machine
end

