-- ==== Sys2Proof/Machine/Memory.lean ====
section
/-!
DEFINITION. The memory hierarchy and the order of a core's accesses: the L1 (R243), the memory-side caches (R244), the
access counters (R274), the queue of accesses (R250, R276 to R284), and the loads, stores and atomics, with LOAD_RETURN,
STORE_PERFORM and ATOMIC_RETURN.
-/
namespace Sys2Proof.Machine

/-! ### The L1 (R243) -/

/-- Sets of an L1: its share over 4 KiB. -/
def Core.l1Sets (c : Core) : Nat := c.l1kb / 4

/-- The byte address by which the L1 caches a place: none for what it never caches. -/
def Loc.l1Addr : Loc → Option Nat
  | .dram _ ia _ => some ia
  | .code a => some (2 ^ 52 + a)
  | _ => none

/-- The group of a block, if present. -/
def Core.l1Group? (c : Core) (blk : Nat) : Option L1Group := c.l1.find? fun g => g.blk == blk

/-- A group put first in the order of use, in place of what stood for its block. -/
def Core.l1Use (c : Core) (g : L1Group) : Core := { c with l1 := g :: c.l1.filter (fun h => h.blk != g.blk) }

/-- The group that leaves a set for another one, if the set is full: the least recently used; the list is in order of use,
latest first. -/
def Core.l1Victim (c : Core) (set : Nat) : Option L1Group :=
  let here := c.l1.filter fun g => g.blk % c.l1Sets == set
  if here.length < 8 then none else here.getLast?

/-- Does the L1 hold a byte's line? -/
def Core.l1Has (c : Core) (addr : Nat) : Bool :=
  match c.l1Group? (addr / 512) with
  | some g => g.valid.getLsbD (addr / 128 % 4)
  | none => false

/-- A load or fetch of a line: a hit moves its group first; a miss fills the line, allocating a group when none is
present. A group leaves whole, and only once its dirty lines have cleared: until then the new group waits. -/
def Core.l1Fill (c : Core) (addr : Nat) : Core :=
  let line := BitVec.ofNat 4 (2 ^ (addr / 128 % 4))
  if c.l1Sets = 0 then c
  else match c.l1Group? (addr / 512) with
    | some g => c.l1Use { g with valid := g.valid ||| line }
    | none => match c.l1Victim (addr / 512 % c.l1Sets) with
      | none => c.l1Use ⟨addr / 512, line, 0⟩
      | some g =>
        if g.dirty = 0 then ({ c with l1 := c.l1.filter (fun h => h.blk != g.blk) } : Core).l1Use ⟨addr / 512, line, 0⟩
        else if c.l1Wait.contains addr then c
        else { c with l1Wait := c.l1Wait ++ [addr] }

/-- A store: into the copy of a group that is present, whose line becomes dirty; nothing otherwise. -/
def Core.l1Store (c : Core) (addr : Nat) : Core :=
  match c.l1Group? (addr / 512) with
  | some g =>
    let line := BitVec.ofNat 4 (2 ^ (addr / 128 % 4))
    c.l1Use { g with valid := g.valid ||| line, dirty := g.dirty ||| line }
  | none => c

/-- Is the line of a place dirty in the L1? -/
def Core.l1Dirty (c : Core) (l : Loc) : Bool := l.l1Addr.any fun a => match c.l1Group? (a / 512) with
  | some g => g.dirty.getLsbD (a / 128 % 4)
  | none => false

/-- The dirty bit of a line clears, and the groups that wait for that are filled. -/
def Core.l1Clean (c : Core) (addr : Nat) : Core :=
  let l1 := c.l1.map fun g =>
    if g.blk = addr / 512 then { g with dirty := g.dirty &&& ~~~(BitVec.ofNat 4 (2 ^ (addr / 128 % 4))) } else g
  c.l1Wait.foldl Core.l1Fill { c with l1 := l1, l1Wait := [] }

/-- Lines of a page leave the L1 (R267). -/
def Core.l1DropPage (c : Core) (page : Nat) : Core := { c with l1 := c.l1.filter fun g => g.blk / 128 != page }

/-! ### The memory-side caches (R244, R246) -/

/-- Ways of a slice that cache. -/
def Slice.cacheWays (sl : Slice) : List Nat :=
  (List.range 16).filter fun w => decide (sl.ways ≤ w) && decide (sl.waysNew ≤ w) && !sl.disabled.contains w

/-- Does a range of staging bytes touch a way that is disabled (R395)? -/
def Slice.disabledIn (sl : Slice) (lo n : Nat) : Bool :=
  sl.disabled.any fun w => decide (w * 524288 < lo + n) && decide (lo < (w + 1) * 524288)

/-- A slice's line replaced. -/
def Slice.putLine (sl : Slice) (l : L2Line) : Slice :=
  { sl with lines := l :: sl.lines.filter (fun k => k.line != l.line) }

/-- The owner tag of a core's write (R387). -/
def State.ownerOf (s : State) (core : Nat) (fw : Bool) : Owner :=
  { dom := s.regs.domain, asid := (s.asidOf core).getD 0, fw := fw }

/-- A dirty line is written back to DRAM and stays, clean, with no tag (R387), poison with it (R390); its granules are written anew (R399).
One that is found lost there is not written (R400). -/
def State.writeBack (s : State) (slice : Nat) (l : L2Line) : State :=
  let bad := s.errors.planted.any fun e => e.1 == l.line && !e.2.1 && e.2.2
  let s := (s.detect l.line false l.ia).2
  let lost := ((s.rod slice).slice.lines.find? fun k => k.line == l.line).any (·.poison)
  let s := s.markDram l.line lost
  let s := if bad then s
    else ((s.countMove l.line l.ia s.regs.domain.toNat).freshCopy l.line true).plant l.line l.ia true
  s.modRod slice fun r => { r with slice := r.slice.putLine { l with dirty := false, tag := none, poison := lost } }

/-- An access reaches the home slice of a line: hit or miss, with the line fetched and a way allocated on a miss, and the extra ticks
of a miss (about 56, R248; and a DRAM replay, R386). A write makes the line dirty under its owner; an atomic also `reads` the line. A
write clears the poison that its fetch leaves (R390). The victim among a set's cache ways is free (log 3), and the set is the line's
number mod 4,096 (log 14). `asker` is the package that asks, where it is another one (R274), and `eng` the token of the engine operation
that reads (R397). -/
def State.l2Access (s : State) (line ia : Nat) (write : Option Owner) (reads : Bool := write.isNone) (asker : Option Nat := none)
    (eng : Option Nat := none) : Nat × State :=
  let slice := homeSlice (line * 128)
  let sl := (s.rod slice).slice
  let pkg := match write with
    | some o => if o.remote then o.dom.toNat else s.regs.domain.toNat
    | none => asker.getD s.regs.domain.toNat
  match if (s.rod slice).sliceUp then sl.lines.find? (fun l => l.line == line) else none with
  | some l =>
    let r := if reads then s.detect line false ia eng else (0, s)
    let s := match write with
      | some o =>
        let k : L2Line := { l with dirty := true, tag := some o, poison := r.2.poisoned line }
        r.2.modRod slice fun q => { q with slice := q.slice.putLine k }
      | none => r.2
    (r.1, if write.isSome then s.plant line ia false else s)
  | none =>
    let r := s.detect line true ia
    let s := r.2.countMove line ia pkg
    let ways := sl.cacheWays
    let past := !(s.rod slice).sliceUp || ways.isEmpty
    let s := if past then s
      else
        let c := (s.freshCopy line false).choose ways.length
        let way := ways.getD c.1 0
        let s := match (c.2.rod slice).slice.lines.find? fun l => l.line % 4096 == line % 4096 && l.way == way with
          | some v =>
            let s := if v.dirty then c.2.writeBack slice v else c.2
            s.modRod slice fun r => { r with slice := { r.slice with lines := r.slice.lines.filter (fun k => k.line != v.line) } }
          | none => c.2
        let k : L2Line := ⟨line, way, write.isSome, s.errors.poison.contains line, write, ia⟩
        s.modRod slice fun r => { r with slice := r.slice.putLine k }
    (56 + r.1, if write.isSome then s.plant line ia past else s)

/-- The part itself reads or writes bytes of memory, for the firmware or for a context: their lines pass through the memory-side caches as
those of a core's class-0 accesses do (R244, R274, R386 to R390, log 13). -/
def State.partLines (s : State) (ia n : Nat) (write : Option Owner) : State :=
  (linesOf [(ia, n)]).foldl (fun (s : State) ln => match s.dramLine ln write.isSome with
    | some d => (s.l2Access d (ln * 128) write).2
    | none => s) s

/-- The tag of a line that the firmware writes (R387). -/
def State.fwOwner (s : State) : Owner := { dom := s.regs.domain, fw := true }

/-- The tag of a line that is written for the context of a core, or for context 0 (R387). -/
def State.acctOwner (s : State) (core : Nat) : Owner := s.ownerOf core (s.asidOf core).isNone

/-- Bytes that the part itself writes. -/
def State.partPut (s : State) (ia : Nat) (own : Owner) (bs : List Byte) : State :=
  (s.partLines ia bs.length (some own)).putSide .mem ia bs

/-- The tick before which a line's frame is being retired: accesses to it wait (R394). -/
def State.retireTill (s : State) (line : Nat) : Nat :=
  match s.errors.retiring.find? fun e => e.1 == line / 512 with
  | some e => e.2.1
  | none => 0

/-- Is the page of one of some lines being retired, so that what accesses it waits (R394)? -/
def State.linesRetiring (s : State) (lines : List Nat) : Bool :=
  !s.errors.retiring.isEmpty && lines.any fun ln => match s.dramLine ln false with
    | some d => decide (s.tick < s.retireTill d)
    | none => false

/-! ### Records and notices that the part writes (R274, R275, R396) -/

/-- Bytes that a unit of the part writes at an intermediate address, where it is mapped for writing: seen by every read from then on,
and so before the unit's TAIL moves (R275, R396). The line passes through its home slice as others that the part writes do (log 13), and
a write clears poison (R390). -/
def State.putIa (s : State) (ia : Nat) (bs : List Byte) : Option State := (s.iaLoc ia true).map fun l => match l with
  | .dram o _ _ => ((s.partLines ia bs.length (some s.fwOwner)).clearPoison (o / 128)).putSeen o bs
  | .remote i => s.putSeen (remoteKey i) bs
  | _ => s

/-- Does a unit's write wait for a page that is being retired (R394)? With every clock stopped, the log's record does not (R393). -/
def State.putWaits (s : State) (ia : Nat) : Bool := !s.errors.frozen && s.linesRetiring [ia / 128]

/-- The address of the next record of the error log, if the log takes one (R396). -/
def State.recordSlot (s : State) : Option Nat :=
  let cfg := s.regs.elcfg
  let tail := rfield s.regs.elptr 0 32
  let n := ringSlots (rfield cfg 0 5)
  if !rbit cfg 8 || decide ((tail + 2 ^ 32 - rfield s.regs.elptr 32 32) % 2 ^ 32 ≥ n) then none
  else some (rfield s.regs.elbase 5 47 * 32 + 32 * (tail % n))

/-- A record is written to the error log, or lost with OVF (R396); answers whether it was written. -/
def State.putRecord (s : State) (r : ErrRec) : Bool × State :=
  match s.recordSlot.bind fun a => s.putIa a r.bytes with
  | none => (false, { s with regs := { s.regs with elcfg := s.regs.elcfg ||| 0x200#64 } })
  | some t =>
    (true, { t with regs := { t.regs with
      elptr := setBits t.regs.elptr 0xFFFFFFFF#64 (BitVec.ofNat 64 ((rfield s.regs.elptr 0 32 + 1) % 2 ^ 32)) } })

/-- A record written, with MSI-X 64 behind it when IRQ is set (R396); that of a package machine check is followed by it even where the
log does not take it (R393). -/
def State.writeRecord (s : State) (r : ErrRec) : State :=
  let p := s.putRecord r
  if (p.1 || r.severity == 4) && rbit p.2.regs.elcfg 10 then p.2.msix 64 else p.2

/-- Records written in order, up to one whose page is being retired. -/
def State.writeRecords : List ErrRec → State → State
  | [], s => s
  | r :: rs, s =>
    if s.recordSlot.any s.putWaits then { s with errors := { s.errors with out := r :: rs } }
    else State.writeRecords rs (s.writeRecord r)

/-- The records of the tick that ends are written, behind those that still wait (R396). -/
def State.flushRecords (s : State) : State :=
  let rs := s.errors.records
  State.writeRecords (s.errors.out ++ settleRecords rs (sortBy ErrRec.place rs) [])
    { s with errors := { s.errors with records := [], out := [] } }

/-- The address of the record that a crossing of a page writes, if it writes one (R274). -/
def State.noticeSlot (s : State) (page : Nat) : Option Nat :=
  let cfg := s.regs.mncfg
  let tail := rfield s.regs.mnptr 0 32
  let n := ringSlots (rfield cfg 0 5)
  if s.mapWord1 page / 2 ^ 31 % 2 = 1 || !rbit cfg 8 || decide ((tail + 2 ^ 32 - rfield s.regs.mnptr 32 32) % 2 ^ 32 ≥ n) then none
  else some (rfield s.regs.mnbase 4 48 * 16 + 16 * (tail % n))

/-- One crossing acted upon (R274). -/
def State.crossing (s : State) (page count pkg : Nat) : State :=
  let set := fun (s : State) (bit : Nat) =>
    let w := s.mapWord1 page
    s.setMapWord1 page (if w / 2 ^ bit % 2 = 1 then w else w + 2 ^ bit)
  if s.mapWord1 page / 2 ^ 31 % 2 = 1 then set s 30
  else
    let ia := s.regs.domain.toNat * 2 ^ 48 + page * 65536
    match (s.noticeSlot page).bind fun a => s.putIa a (toLe 8 ia ++ toLe 8 (count + pkg * 65536)) with
    | none => { s with regs := { s.regs with mncfg := s.regs.mncfg ||| 0x200#64 } }
    | some t => set { t with regs := { t.regs with
        mnptr := setBits t.regs.mnptr 0xFFFFFFFF#64 (BitVec.ofNat 64 ((rfield s.regs.mnptr 0 32 + 1) % 2 ^ 32)) } } 31

/-- Crossings acted upon in order, up to one whose record's page is being retired. -/
def State.writeNotices : List (Nat × Nat × Nat) → State → State
  | [], s => s
  | e :: es, s =>
    if (s.noticeSlot e.1).any s.putWaits then { s with pm := { s.pm with notices := e :: es } }
    else State.writeNotices es (s.crossing e.1 e.2.1 e.2.2)

/-- The crossings of a tick, in ascending stack order, behind those that still wait (R274). -/
def State.crossings (s : State) : State :=
  let l := sortBy (fun e : Nat × Nat × Nat => stackOf (s.wordInForce e.1 % 2 ^ 23 * 65536)) s.pm.crossings
  State.writeNotices (s.pm.notices ++ l) { s with pm := { s.pm with crossings := [], notices := [] } }

def MemKind.isLoad : MemKind → Bool
  | .load _ => true
  | _ => false
def MemKind.isStore : MemKind → Bool
  | .store => true
  | _ => false
def MemKind.isAtomic : MemKind → Bool
  | .atomic _ _ => true
  | _ => false

def MemKind.isLater : MemKind → Bool
  | .later _ _ _ _ => true
  | _ => false
/-- Is it a row of the scratchpad? -/
def MemKind.isRow : MemKind → Bool
  | .later i _ _ _ => match i with
    | .vld _ _ _ | .vst _ _ _ | .vlde _ _ | .vste _ _ => true
    | _ => false
  | _ => false
/-- Is it a row that is read, so that a result waits for it? -/
def MemKind.isRowRead : MemKind → Bool
  | .later i _ _ _ => match i with
    | .vld _ _ _ | .vlde _ _ => true
    | _ => false
  | _ => false
/-- Is it an access to a ring or a queue that gives a value, which stands before an engine operation as a plain atomic does, and so keeps
none behind it (Table 15-5, note 3)? -/
def MemKind.isTake : MemKind → Bool
  | .later i _ _ _ => match i with
    | .rtake _ _ | .pqpop _ => true
    | _ => false
  | _ => false

/-! ### Engine operations as fences and releases see them (R282 to R284) -/

/-- Scopes in order (Table 5-1). -/
def scopeNum : Scope → Nat
  | .core => 0 | .rod => 1 | .panel => 2 | .chip => 3 | .domain => 4

/-- Effect scope of a side (Table 15-1): memory and far slices chip, a slice of the panel or rod, or the core. -/
def Last.scope (l : Last) (core : Nat) : Nat :=
  match l.space with
  | 1 => 0
  | 2 => if l.slice = rodOf core then 1 else if l.slice / 4 = panelOf core then 2 else 3
  | _ => 3

/-- Effect scope of an engine operation of a core (Table 15-1). -/
def State.engScope (s : State) (core : Nat) : EngKind → Nat
  | .copy f src dst =>
    if f ≥ 4 then 3 else Nat.max ((s.last core src).scope core) ((s.last core dst).scope core)
  | .send _ _ _ _ | .sendr _ _ | .recv _ _ => 4
  | _ => 3

/-- The engine operations of a core that a fence of a scope waits for (R283): those issued, with E within the scope, not complete and
not refused. RWAIT counts as of chip scope (R287); barriers are no effects of engines (R281), and a probe that a handler holds aside
goes on only after it (R272). -/
def State.fenceIds (s : State) (core : Nat) (scope : Scope) : List Nat :=
  let e := (s.core core).eng
  let eng := (e.eng.filter fun o => match o.kind with
    | .bar _ _ | .barbw _ | .marker _ => false
    | k => decide (s.engScope core k ≤ scopeNum scope)).map (·.id)
  let probes := if scopeNum scope ≥ 3 then e.probes.map (·.id) else []
  eng ++ probes ++ e.mq.map (·.id) ++ e.mrun.map (·.id)

/-- Has everything that a fence of `scope` at operation `id` waits for been satisfied (R283, R285)? A waiting RTICK is a class-0
access not yet performed (R287). -/
def State.fenceMet (s : State) (core : Nat) (scope : Scope) (id : Nat) : Bool :=
  let c := s.core core
  !(c.eng.memq.any fun o => decide (o.id < id) && (!o.performed || o.kind.isStore)) &&
  !(c.seq.ticketWait.any fun t => decide (t.1 < id)) &&
  !((s.fenceIds core scope).any fun i => decide (i < id))

/-- Are the FENCEs met that stand before operation `id` in its own bundle or an earlier one, those that a trap entry has held aside
among them for the operations of the program it met (R283)? -/
def State.fencesMet (s : State) (core id : Nat) : Bool :=
  let q := (s.core core).seq
  (q.fence.all fun f => decide (id < f.2) || s.fenceMet core f.1 f.2) &&
    (decide (q.heldTo ≤ id) || q.heldFence.all fun f => decide (id < f.2) || s.fenceMet core f.1 f.2)

/-! ### The queue of accesses -/

/-- The byte a place begins at, in the one address space of this model's bytes. -/
def Loc.key : Loc → Nat
  | .dram o _ _ => o
  | .remote ia => remoteKey ia
  | .code a => 2 ^ 54 + a
  | .table off => 2 ^ 55 + off

/-- Is an earlier access kept before a later one by something between them that was carried out ahead of it (R278)? -/
def MemOp.gates (e : MemOp) (id : Nat) : Bool := e.gate.any fun g => decide (g ≤ id)

/-- Does an earlier access keep its place before a later one (R278, R280)? -/
def MemOp.before (e op : MemOp) : Bool :=
  !e.performed && (e.kind.isLater || e.kind.isAtomic || op.kind.isAtomic || e.cls == 0 || op.cls == 0 || e.cls == op.cls || e.gates op.id)

/-- An access that is not performed yet is kept before every access from number `id` on, and before every engine operation too where
`eng` says so. -/
def MemOp.gateFrom (id : Nat) (eng : Bool) (e : MemOp) : MemOp :=
  let low := fun g : Option Nat => some (Nat.min id (g.getD id))
  if e.performed then e else { e with gate := low e.gate, egate := if eng then low e.egate else e.egate }

/-- Is an engine operation complete or refused? Operations that nothing names any more are. -/
def Arch.opDone (a : Arch) (id : Nat) : Bool :=
  match a.ops.find? fun o => o.id == id with
  | some o => o.st == .complete || o.st == .refused
  | none => true

/-- Do two accesses touch a common byte? -/
def MemOp.touches (e : MemOp) (a : Nat) : Bool := decide (e.loc.key ≤ a) && decide (a < e.loc.key + e.n)
/-- The byte a store writes at an address it touches. -/
def MemOp.byteAt (e : MemOp) (a : Nat) : Byte := (e.data >>> (8 * (a - e.loc.key))).truncate 8

/-- Is the line of a place poisoned? -/
def State.locPoisoned (s : State) : Loc → Bool
  | .dram o _ _ => s.poisoned (o / 128)
  | _ => false

/-- Is a core's read at a place one of lost bytes that is counted: not of those whose loss ended its context (R390)? -/
def State.countsLost (s : State) (core : Nat) : Loc → Bool
  | .dram o _ _ => s.poisoned (o / 128) && !s.lostTo core (o / 128)
  | _ => false

/-- A core's read of lost bytes at a place is counted and raises its class (R390). -/
def State.poisonLoc (s : State) (core : Nat) : Loc → State
  | .dram o ia _ => s.poisonRead core (o / 128) ia
  | _ => s

/-- The bytes a read that has seen `v` writes returns: for each byte, memory's, or that of an earlier store of another nonzero
class not yet performed (R277, R280). A read of a poisoned line returns zeros (R390). -/
def State.readBytes (s : State) (v : Nat) (pre : List MemOp) (op : MemOp) : List Byte :=
  if s.locPoisoned op.loc then List.replicate op.n 0
  else (List.range op.n).map fun i =>
    let a := op.loc.key + i
    pre.foldl (fun b e =>
      if e.kind.isStore && !e.performed && e.touches a && Config.choiceAt 3 e.id (op.id * 8 + i) % 2 = 1 then e.byteAt a
      else b) ((s.viewBytes v op.loc op.n).getD i 0)

/-- What an earlier store of another class, not yet performed, will leave where a later store overlaps it: for each
common byte, the value of one of them (R280). -/
def MemOp.yield (e op : MemOp) : MemOp :=
  if e.kind.isStore && !e.performed then
    { e with data := (List.range e.n).foldl (fun d i =>
        let a := e.loc.key + i
        if op.touches a && Config.choiceAt 4 e.id (op.id * 8 + i) % 2 = 1 then
          (d &&& ~~~(0xFF#64 <<< (8 * i))) ||| (((op.byteAt a).zeroExtend 64) <<< (8 * i))
        else d) e.data }
  else e

/-- The new value of an atomic (R300), on `w`-bit values. -/
def atomicNew (f w : Nat) (m v c : Nat) : Nat :=
  let sg := fun x : Nat => if x ≥ 2 ^ (w - 1) then (x : Int) - 2 ^ w else (x : Int)
  match f with
  | 0 => (m + v) % 2 ^ w
  | 1 => if sg m < sg v then v else m
  | 2 => if sg v < sg m then v else m
  | 3 => if m < v then v else m
  | 4 => v
  | 5 => if m = c then v else m
  | 6 => m &&& v
  | _ => m ||| v

/-- The classes that became pending on a core since `old`, taken off it again: an access that finds an error raises its
MACHINE_CHECK in the cycle in which its result lands (R392). -/
def State.takeChecks (s old : State) (core : Nat) : List (Nat × BitVec 64) × State :=
  let n := (old.core core).seq.pendTraps.length
  ((s.core core).seq.pendTraps.drop n,
    s.modCore core fun c => { c with seq := { c.seq with pendTraps := c.seq.pendTraps.take n } })

/-- Where a store or an atomic is performed: the home slice has the line, dirty under its owner, with the fetch of a miss and what an
atomic's read finds (R243, R279, R387, R389). Answers the extra ticks of the slice and the classes that an error found there raises. -/
def State.atHome (s : State) (core : Nat) (op : MemOp) : (Nat × List (Nat × BitVec 64)) × State :=
  match op.loc with
  | .dram o ia fw =>
    let r := s.l2Access (o / 128) ia (some (s.ownerOf core fw)) op.kind.isAtomic
    let k := r.2.takeChecks s core
    ((r.1, k.1), k.2)
  | _ => ((0, []), s)

/-- An access performed: its value taken, its bytes written, in program order with what precedes it (`pre`). -/
def State.perform (s : State) (core : Nat) (pre : List MemOp) (op : MemOp) (post : List MemOp) : State :=
  let setq := fun (s : State) (p : List MemOp) (o : MemOp) (q : List MemOp) => s.modCore core fun c =>
    { c with eng := { c.eng with memq := p ++ o :: q } }
  let clean := fun (s : State) => match op.loc with
    | .dram o _ _ => s.clearPoison (o / 128)
    | _ => s
  match op.kind with
  | .load _ =>
    let r := s.pickView core
    (setq r.2 pre { op with performed := true, poison := s.countsLost core op.loc,
                            data := BitVec.ofNat 64 (leNat (s.readBytes r.1 pre op)) } post).modCore core
      fun c => { c with view := r.1 }
  | .store =>
    let r := s.atHome core op
    (setq ((clean r.2).putLocAt op.loc (toLe op.n op.data.toNat) (Nat.max s.tick op.due)) (pre.map fun e => e.yield op)
      { op with performed := true, mc := r.1.2 } post).catchUp core
  | .atomic f cmp =>
    let r := s.atHome core op
    let s := r.2
    let m := if s.locPoisoned op.loc then 0 else leNat (s.locBytes op.loc op.n)
    let new := toLe op.n (atomicNew f (8 * op.n) m op.data.toNat cmp.toNat)
    (setq ((clean s).putLocAt op.loc new (Nat.max s.tick op.due)) pre
      { op with performed := true, poison := s.countsLost core op.loc, data := BitVec.ofNat 64 m, mc := r.1.2,
                due := Nat.max op.back (s.tick + r.1.1) } post).catchUp core
  | .later _ _ _ _ => s

/-- Is an access free of what holds it back: the engine operations that a release waits for (R284), and earlier RTICKs
that have no ticket yet, which are class-0 accesses (R287)? -/
def MemOp.free (op : MemOp) (c : Core) : Bool :=
  op.waits.all c.arch.opDone && !c.seq.ticketWait.any (fun t => decide (t.1 < op.id))

/-- Has an access its place in the order next, behind the accesses `pre`: everything it is kept behind is performed, nothing holds it
back (R279, R280, R283, R284), and its page is not being retired, unless it found the error itself (R394)? -/
def State.isNext (s : State) (core : Nat) (pre : List MemOp) (op : MemOp) : Bool :=
  !op.performed && !op.kind.isLater && !pre.any (fun e => e.before op) && op.free (s.core core) && s.fencesMet core op.id &&
    (!op.mc.isEmpty || match op.loc with
      | .dram o _ _ => decide (s.retireTill (o / 128) ≤ s.tick)
      | _ => true)

/-- Can an access be performed now, behind the accesses `pre`: it is next, and a store or an atomic has reached its home slice? -/
def State.mayPerform (s : State) (core : Nat) (pre : List MemOp) (op : MemOp) : Bool :=
  s.isNext core pre op && (op.kind.isLoad || decide (op.due ≤ s.tick))

/-- A FENCE that an access stands behind has been met, one that a trap entry has held aside among them for what the program it met had
issued: the core sees what came before it (R278, R283). -/
def State.seeFence (s : State) (core id : Nat) : State :=
  let q := (s.core core).seq
  let behind := fun f : Scope × Nat => decide (f.2 ≤ id)
  if q.fence.any behind || (decide (id < q.heldTo) && q.heldFence.any behind) then s.catchUp core else s

/-- One access performed, if it meets a test. -/
def State.performIf (s : State) (core : Nat) (may : State → List MemOp → MemOp → Bool) (id : Nat) : State :=
  match (s.core core).eng.memq.span (fun o => o.id != id) with
  | (_, []) => s
  | (pre, op :: post) => if may s pre op then (s.seeFence core id).perform core pre op post else s

/-- One access performed, if it can be now. -/
def State.performOne (s : State) (core id : Nat) : State := s.performIf core (fun s => s.mayPerform core) id

/-- Every access of a core that can be performed now is, in program order. -/
def State.pump (s : State) (core : Nat) : State :=
  ((s.core core).eng.memq.map (·.id)).foldl (fun (s : State) i => s.performOne core i) s

/-- Accesses of a core from number `id` on are kept behind those before that are not performed and that `p` picks, and engine operations
too where `eng` says so of them (R278). -/
def State.gateFrom (s : State) (core id : Nat) (p eng : MemOp → Bool) : State :=
  if (s.core core).eng.memq.isEmpty then s
  else s.modCore core fun c => { c with eng := { c.eng with
    memq := c.eng.memq.map fun o => if p o then o.gateFrom id (eng o) else o } }

/-- Stands an access before operation `id` only because something else has not ended: what a release, a FENCE or a ticket waits for, or a
row of the scratchpad? -/
def State.heldUp (s : State) (core id : Nat) : Bool :=
  let c := s.core core
  c.seq.ticketWait.any (fun t => decide (t.1 < id)) || c.eng.memq.any fun o => decide (o.id < id) && !o.performed &&
    (o.kind.isRow || !o.free c || !s.fencesMet core o.id)

/-- Has a core engine operations that move bytes of memory or of its scratchpad? -/
def Engines.moving (e : Engines) : Bool := e.eng.any fun o => match o.kind with
  | .bar _ _ | .barbw _ | .rwait _ | .marker _ => false
  | _ => true

/-- Is the place of an operation in the order come that is kept behind every earlier access (R287)? -/
def State.ringTurn (s : State) (core id : Nat) : Bool :=
  let c := s.core core
  s.fencesMet core id && !c.seq.ticketWait.any (fun t => decide (t.1 < id)) &&
    !c.eng.memq.any fun o => decide (o.id < id) && !o.performed

/-- Ticks that an access waits behind other traffic on its way (R17), free for each access (log 3): `use` is 0 for the core's next
operation and 1 for a fetch of code. -/
def State.traffic (s : State) (core use : Nat) : Nat := Config.choiceAt 10 s.tick (core + 256 * (2 * (s.core core).uid + use))

/-- A read access reaches the caches: the tick and the core cycle at which its value can land (R243, R248). -/
def State.touchRead (s : State) (core : Nat) (l : Loc) : (Nat × Nat) × State :=
  let c := s.core core
  match l with
  | .table _ => ((s.tick + sliceLatency core (rodOf core), 0), s)
  | .remote _ => ((s.tick + 392 + s.traffic core 0, 0), s)
  | _ =>
    let addr := l.l1Addr.getD 0
    let o := match l with
      | .dram o _ _ => o
      | .code a => 2 ^ 54 + a
      | _ => 0
    let s' := s.setCore core (c.l1Fill addr)
    if c.l1Has addr then ((s.retireTill (o / 128), c.cyc + 3), s')
    else
      let r := s'.l2Access (o / 128) addr none
      ((Nat.max (s.tick + sliceLatency core (homeSlice o) + r.1 + s.traffic core 0) (s.retireTill (o / 128)), 0), r.2)

/-- A write access goes to its home slice: the least tick by which it can have got there, after one traversal to the other die, and the
least by which an atomic's value is back, after the round trip of a load; other traffic makes both later (R17, R18, R243, R248, log 3). -/
def State.touchWrite (s : State) (core : Nat) (l : Loc) : Nat × Nat :=
  let t := s.tick + s.traffic core 0
  match l with
  | .dram o _ _ =>
    let home := homeSlice o
    let free := s.retireTill (o / 128)
    (Nat.max (t + if home / 32 = dieOf core then 0 else 31) free, Nat.max (t + sliceLatency core home) free)
  | _ => (t, t + 392)

/-! ### Loads and stores (R249, R250) -/

/-- An access appended to the queue (R279, R280). A load may be performed at once, with what stands before it, or only as it returns
(log 34); a store or an atomic is performed at its home slice. -/
def State.enqueue (s : State) (core : Nat) (op : MemOp) : State :=
  let id := (s.core core).uid
  let s := s.modCore core fun c => { c with
    eng := { c.eng with memq := c.eng.memq ++ [{ op with id := id }] }, uid := id + 1 }
  if op.kind.isLoad && Config.choiceAt 11 s.tick (core + 256 * id) % 2 = 0 then s.pump core else s

/-- An operation of the acting core that is still to come to its place in the order. -/
def State.defer (s : State) (i : Instr) (xd : BitVec 5) (bound : Nat) (v w : BitVec 64) (row : Row) : State :=
  s.onMe fun c => { c with
    eng := { c.eng with memq := c.eng.memq ++ [{ id := c.uid, kind := .later i v w row, cls := 0, loc := .table 0, n := 0, xd := xd,
                                                 dueCyc := c.cyc + bound }] },
    uid := c.uid + 1 }

/-- An interlock on a loaded register (R127); x0 holds nothing. -/
def Core.interlock (c : Core) (xd : BitVec 5) (m : Bool) : Core :=
  if xd = 0 then c else { c with eng := { c.eng with ilk := c.eng.ilk ++ [{ id := c.uid, xd := xd, mclass := m }] } }

/-- A FATAL_ACCESS at the issuing bundle (R131 step 4, R250). -/
def fatalAccess (va : Word) (s : State) : Out := .next (s.takeTrap s.act 0 va s.me.latch.pc)

/-- The address of a load or store (R250). -/
def State.ldstVa (s : State) (n : Nat) (ar : BitVec 4) (imm : BitVec 9) : Word := s.ra ar + sext64 imm * BitVec.ofNat 64 n

/-- The place a load or store reaches, if it reaches one. -/
def State.ldstLoc (s : State) (n : Nat) (store : Bool) (ar : BitVec 4) (imm : BitVec 9) : Option Loc :=
  let va := (s.ldstVa n ar imm).toNat
  if va % n != 0 then none else s.resolve s.act va n (!store) store (!store)

/-- A load (R250). -/
def loadForm (n : Nat) (signed : Bool) (cls : BitVec 3) (xd : BitVec 5) (ar : BitVec 4) (imm : BitVec 9) (s : State) : Out :=
  match s.ldstLoc n false ar imm with
  | none => fatalAccess (s.ldstVa n ar imm) s
  | some l =>
    let r := s.touchRead s.act l
    let k := r.2.takeChecks s s.act
    let s := k.2.onMe fun c => c.interlock xd false
    .next (s.enqueue s.act { id := 0, kind := .load signed, cls := cls.toNat, loc := l, n := n, xd := xd,
                             due := r.1.1, dueCyc := r.1.2, mc := k.1 })

/-- A store (R250). -/
def storeForm (n : Nat) (cls : BitVec 3) (xs : BitVec 5) (ar : BitVec 4) (imm : BitVec 9) (s : State) : Out :=
  match s.ldstLoc n true ar imm with
  | none => fatalAccess (s.ldstVa n ar imm) s
  | some l =>
    let v := BitVec.ofNat 64 ((s.rx xs).toNat % 2 ^ (8 * n))
    let s := match l.l1Addr with
      | some a => s.onMe fun c => c.l1Store a
      | none => s
    .next (s.enqueue s.act { id := 0, kind := .store, cls := cls.toNat, loc := l, n := n, data := v,
                             due := (s.touchWrite s.act l).1 })

/-- LDBU (Table 13-2). -/
def execLdbu (cls : BitVec 3) (xd : BitVec 5) (ar : BitVec 4) (imm : BitVec 9) (s : State) : Out := loadForm 1 false cls xd ar imm s
/-- LDB (Table 13-2). -/
def execLdb (cls : BitVec 3) (xd : BitVec 5) (ar : BitVec 4) (imm : BitVec 9) (s : State) : Out := loadForm 1 true cls xd ar imm s
/-- LDHU (Table 13-2). -/
def execLdhu (cls : BitVec 3) (xd : BitVec 5) (ar : BitVec 4) (imm : BitVec 9) (s : State) : Out := loadForm 2 false cls xd ar imm s
/-- LDH (Table 13-2). -/
def execLdh (cls : BitVec 3) (xd : BitVec 5) (ar : BitVec 4) (imm : BitVec 9) (s : State) : Out := loadForm 2 true cls xd ar imm s
/-- LDWU (Table 13-2). -/
def execLdwu (cls : BitVec 3) (xd : BitVec 5) (ar : BitVec 4) (imm : BitVec 9) (s : State) : Out := loadForm 4 false cls xd ar imm s
/-- LDW (Table 13-2). -/
def execLdw (cls : BitVec 3) (xd : BitVec 5) (ar : BitVec 4) (imm : BitVec 9) (s : State) : Out := loadForm 4 true cls xd ar imm s
/-- LDD (Table 13-2). -/
def execLdd (cls : BitVec 3) (xd : BitVec 5) (ar : BitVec 4) (imm : BitVec 9) (s : State) : Out := loadForm 8 false cls xd ar imm s
/-- STB (Table 13-2). -/
def execStb (cls : BitVec 3) (xs : BitVec 5) (ar : BitVec 4) (imm : BitVec 9) (s : State) : Out := storeForm 1 cls xs ar imm s
/-- STH (Table 13-2). -/
def execSth (cls : BitVec 3) (xs : BitVec 5) (ar : BitVec 4) (imm : BitVec 9) (s : State) : Out := storeForm 2 cls xs ar imm s
/-- STW (Table 13-2). -/
def execStw (cls : BitVec 3) (xs : BitVec 5) (ar : BitVec 4) (imm : BitVec 9) (s : State) : Out := storeForm 4 cls xs ar imm s
/-- STD (Table 13-2). -/
def execStd (cls : BitVec 3) (xs : BitVec 5) (ar : BitVec 4) (imm : BitVec 9) (s : State) : Out := storeForm 8 cls xs ar imm s

/-- The value that a load or atomic writes, extended from `n` bytes. -/
def extendN (n : Nat) (signed : Bool) (v : BitVec 64) : Word :=
  if signed && v.getLsbD (8 * n - 1) then v ||| ~~~(BitVec.ofNat 64 (2 ^ (8 * n) - 1)) else v

/-- Is the time of an access reached? A value lands behind an earlier write to its register that is in flight (R125, R127). -/
def MemOp.ripe (op : MemOp) (s : State) (core : Nat) : Bool :=
  decide (op.due ≤ s.tick) && decide (op.dueCyc ≤ (s.core core).cyc) &&
    (op.kind.isStore || !(s.core core).arch.xInFlight op.xd)

/-- The access with a number. -/
def State.memOp? (s : State) (core id : Nat) : Option MemOp := (s.core core).eng.memq.find? fun o => o.id == id

/-- A performed access leaves the queue and its register is written and released. -/
def State.landOp (s : State) (core : Nat) (op : MemOp) (signed : Bool) : State :=
  let s := s.modCore core fun c =>
    let c := { c with eng := { c.eng with
      memq := c.eng.memq.filter (fun o => o.id != op.id),
      ilk := c.eng.ilk.filter (fun i => i.id != op.id) } }
    c.putX op.xd (extendN op.n signed op.data)
  let s := op.mc.foldl (fun (s : State) e => s.raiseAsync core e.1 e.2) s
  if op.poison then s.poisonLoc core op.loc else s

/-- An access of a core of another package to the memory of this model (R279), as the numbers of a step from outside name it
(log 1): core 256 + 256 d + c is core c of domain number d, and `op` holds from bit 0 the intermediate address in 52 bits, the
size as a power of two in 2, the value in 64, the ASID in 9, and an atomic's function in 3 and compare value in 64. -/
structure PeerOp where
  dom : Nat
  ia : Nat
  n : Nat
  v : Nat
  asid : Nat
  f : Nat
  cmp : Nat
  deriving DecidableEq, Repr, Inhabited

/-- The access that a peer's core and operation name. -/
def peerOp (core op : Nat) : PeerOp :=
  { dom := (core - 256) / 256 % 16, ia := op % 2 ^ 52, n := 2 ^ (op / 2 ^ 52 % 4), v := op / 2 ^ 54 % 2 ^ 64,
    asid := op / 2 ^ 118 % 512, f := op / 2 ^ 127 % 8, cmp := op / 2 ^ 130 % 2 ^ 64 }

/-- A peer's read reaches its home slice (R268, R274): the line is fetched where no slice holds it, for the peer. -/
def State.peerRead (s : State) (p : PeerOp) : State :=
  if p.dom = s.regs.domain.toNat || p.ia % p.n ≠ 0 then s
  else match s.iaLoc p.ia false with
    | some (.dram o ia _) => (s.l2Access (o / 128) ia none true (some p.dom)).2
    | _ => s

/-- A peer's write reaches its home slice (R279, R387): into this package's DRAM under the peer's tag, or into the memory of
another package as this package's cores read it. It needs a mapped, writable page and an aligned address. -/
def State.peerWrite (s : State) (p : PeerOp) (reads : Bool) (new : Nat → Nat) : State :=
  if p.dom = s.regs.domain.toNat || p.ia % p.n ≠ 0 then s
  else match s.iaLoc p.ia true with
    | none => s
    | some l =>
      match l with
      | .dram o ia _ =>
        let own : Owner := { remote := true, dom := BitVec.ofNat 4 p.dom, asid := p.asid }
        let s := (s.l2Access (o / 128) ia (some own) reads).2
        let m := if s.poisoned (o / 128) then 0 else leNat (s.locBytes l p.n)
        (s.clearPoison (o / 128)).putLoc l (toLe p.n (new m))
      | _ => s.putLoc l (toLe p.n (new (leNat (s.locBytes l p.n))))

/-- A peer's access, a load, a store or an atomic by its kind 0, 1 or 2 (R279, R300); one whose page is being retired waits (R394). -/
def State.peerGo (s : State) (kind core op : Nat) : State :=
  let p := peerOp core op
  if s.iaLocal p.ia && s.linesRetiring [p.ia / 128] then
    { s with errors := { s.errors with held := s.errors.held ++ [(kind, core, op)] } }
  else if kind = 0 then s.peerRead p
  else if kind = 1 then s.peerWrite p false fun _ => p.v
  else s.peerWrite p true fun m => atomicNew p.f (8 * p.n) m (p.v % 2 ^ (8 * p.n)) (p.cmp % 2 ^ (8 * p.n))

/-- PAGE_RETIREMENT (R394): the frame's lines are copied, and stand in the spare frame from now on, poison with them; accesses of other
packages that waited come again. -/
def execPageRetirement (frame : Nat) (s : State) : Out :=
  match s.errors.retiring.find? fun e => e.1 == frame with
  | none => .next s
  | some e =>
    if s.tick < e.2.1 then .next s
    else
      let s := s.readFrame frame
      let held := s.errors.held
      let s := ({ s with errors := { s.errors with
        held := [],
        retiring := s.errors.retiring.filter (fun e => e.1 != frame),
        redirect := s.errors.redirect.filter (fun e => e.1 != frame) ++ [(frame, e.2.2)] } } : State).endContain
      .next (held.foldl (fun (s : State) e => s.peerGo e.1 e.2.1 e.2.2) s)

/-- LOAD_RETURN (R250; of a peer's core, R274): at its time a load takes its place in the order, if it has none yet, and its value lands. -/
def execLoadReturn (core op : Nat) (s : State) : Out :=
  if core ≥ 256 then .next (s.peerGo 0 core op)
  else match s.memOp? core op with
  | none => .next s
  | some o =>
    if !o.kind.isLoad || !o.ripe s core then .next s
    else
      let s := s.performOne core op
      match s.memOp? core op with
      | some o => match o.kind with
        | .load sg => if o.performed then .next (s.landOp core o sg) else .next s
        | _ => .next s
      | none => .next s

/-- A store has been performed: it leaves the queue, the L1's dirty bit clears after the last store of the core to the line (R243), and
an error that its fetch found is raised. -/
def State.storeDone (s : State) (core : Nat) (op : MemOp) : State :=
  let s := s.modCore core fun c => { c with eng := { c.eng with memq := c.eng.memq.filter (fun e => e.id != op.id) } }
  let s := op.mc.foldl (fun (s : State) e => s.raiseAsync core e.1 e.2) s
  match op.loc with
  | .dram _ ia _ =>
    if (s.core core).eng.memq.any fun e => e.kind.isStore && e.loc.key / 128 == op.loc.key / 128 then s
    else s.modCore core fun c => c.l1Clean ia
  | _ => s

/-- STORE_PERFORM (R243, R279): a store reaches its home slice. -/
def execStorePerform (core op : Nat) (s : State) : Out :=
  if core ≥ 256 then .next (s.peerGo 1 core op)
  else match s.memOp? core op with
  | none => .next s
  | some o =>
    if !o.kind.isStore then .next s
    else
      let s := s.performOne core op
      match s.memOp? core op with
      | some o =>
        if o.performed then .next (s.storeDone core o) else .next s
      | none => .next s

/-! ### Atomics (R284, R300) -/

/-- An atomic (R300): it reads and writes in one place of the order, at its home slice. A release is performed after what a fence of its
scope waits for (R284). -/
def atomicForm (f : Nat) (scope : Scope) (xd : BitVec 5) (ar : BitVec 4) (xs : BitVec 5) (dbl : BitVec 1) (ord : BitVec 2)
    (s : State) : Out :=
  let n := if dbl = 1 then 8 else 4
  let va := s.ra ar
  match if va.toNat % n != 0 then none else s.resolve s.act va.toNat n true true false with
  | none => fatalAccess va s
  | some l =>
    let low := fun v : Word => BitVec.ofNat 64 (v.toNat % 2 ^ (8 * n))
    let waits := if ord.getLsbD 1 then s.fenceIds s.act scope else []
    let t := s.touchWrite s.act l
    let op : MemOp := { id := 0, kind := .atomic f (low (s.rx xd)), cls := 0, loc := l, n := n, xd := xd,
                        data := low (s.rx xs), due := t.1, back := t.2, waits := waits, acq := ord.getLsbD 0 }
    let s := s.onMe fun c => c.interlock xd false
    .next (s.enqueue s.act op)

/-- AADD (R300). -/
def execAadd (scope : Scope) (xd : BitVec 5) (ar : BitVec 4) (xs : BitVec 5) (dbl : BitVec 1) (ord : BitVec 2) (s : State) : Out :=
  atomicForm 0 scope xd ar xs dbl ord s
/-- AMAX (R300). -/
def execAmax (scope : Scope) (xd : BitVec 5) (ar : BitVec 4) (xs : BitVec 5) (dbl : BitVec 1) (ord : BitVec 2) (s : State) : Out :=
  atomicForm 1 scope xd ar xs dbl ord s
/-- AMIN (R300). -/
def execAmin (scope : Scope) (xd : BitVec 5) (ar : BitVec 4) (xs : BitVec 5) (dbl : BitVec 1) (ord : BitVec 2) (s : State) : Out :=
  atomicForm 2 scope xd ar xs dbl ord s
/-- AMAXU (R300). -/
def execAmaxu (scope : Scope) (xd : BitVec 5) (ar : BitVec 4) (xs : BitVec 5) (dbl : BitVec 1) (ord : BitVec 2) (s : State) : Out :=
  atomicForm 3 scope xd ar xs dbl ord s
/-- AXCHG (R300). -/
def execAxchg (scope : Scope) (xd : BitVec 5) (ar : BitVec 4) (xs : BitVec 5) (dbl : BitVec 1) (ord : BitVec 2) (s : State) : Out :=
  atomicForm 4 scope xd ar xs dbl ord s
/-- ACAS (R300): the compare value is x[xd]. -/
def execAcas (scope : Scope) (xd : BitVec 5) (ar : BitVec 4) (xs : BitVec 5) (dbl : BitVec 1) (ord : BitVec 2) (s : State) : Out :=
  atomicForm 5 scope xd ar xs dbl ord s
/-- AAND (R300). -/
def execAand (scope : Scope) (xd : BitVec 5) (ar : BitVec 4) (xs : BitVec 5) (dbl : BitVec 1) (ord : BitVec 2) (s : State) : Out :=
  atomicForm 6 scope xd ar xs dbl ord s
/-- AOR (R300). -/
def execAor (scope : Scope) (xd : BitVec 5) (ar : BitVec 4) (xs : BitVec 5) (dbl : BitVec 1) (ord : BitVec 2) (s : State) : Out :=
  atomicForm 7 scope xd ar xs dbl ord s

/-- ATOMIC_RETURN (R300; of a peer's core, R279): at its home slice the atomic is performed, a release once what it waits for is done;
the old value lands, after the fetch of a miss. AMAX and AMIN sign-extend a word. -/
def execAtomicReturn (core op : Nat) (s : State) : Out :=
  if core ≥ 256 then .next (s.peerGo 2 core op)
  else match s.memOp? core op with
  | none => .next s
  | some o =>
    if !o.kind.isAtomic then .next s
    else
      let s := s.performOne core op
      match s.memOp? core op with
      | some o => match o.kind with
        | .atomic f _ =>
          if o.performed && o.ripe s core then .next ((s.landOp core o (f == 1 || f == 2)).pump core) else .next s
        | _ => .next s
      | none => .next s

/-- A row of the scratchpad whose place in the order has come moves, and leaves the queue. A result lands by the bound of its issue. -/
def Core.rowMoves (c : Core) (op : MemOp) : Core :=
  let c := { c with eng := { c.eng with memq := c.eng.memq.filter fun o => o.id != op.id } }
  let lands := fun (v : PendVal) => { c.modArch fun a => { a with pend := a.pend ++ [⟨op.id, op.dueCyc, v, false⟩] } with uid := c.uid }
  match op.kind with
  | .later i v w row =>
    let e := v.toNat
    match i with
    | .vld t _ _ => if w.toNat < 64 then lands (.row (vTile t) w.toNat fullMask (BitVec.ofNat 2048 (leNat (c.spad.bytes e 256)))) else c
    | .vlde _ _ => lands (.sl (BitVec.allOnes 256) (BitVec.ofNat 256 (leNat (c.spad.bytes e 32))))
    | .vst _ _ _ => c.spadWrite e (toLe 256 row.toNat)
    | .vste _ _ => c.spadWrite e (toLe 32 row.toNat)
    | _ => c
  | _ => c

end Sys2Proof.Machine
end

