-- ==== Sys2Proof/Machine/Account.lean ====
section
/-!
DEFINITION. Rod balance (R212 to R216) and the abacus (R217 to R225): charges, write-backs, the charge stream, and the steps
ABACUS_FLUSH, ACS_ENABLE, ACS_DISABLE, CHARGE_RUN_CLOSE, WINDOW_END, FILLER_BUNDLE and STALL_BUNDLE.
-/
namespace Sys2Proof.Machine

/-! ### Cause codes (Table 11-6) -/

/-- A cause code (Table 11-6). -/
def causeIssued : Nat := 0
/-- A cause code (Table 11-6). -/
def causeEmpty : Nat := 1
/-- A cause code (Table 11-6). -/
def causeTile : Nat := 2
/-- A cause code (Table 11-6). -/
def causeToken : Nat := 3
/-- A cause code (Table 11-6). -/
def causeRecv : Nat := 4
/-- A cause code (Table 11-6). -/
def causeSleep : Nat := 5
/-- A cause code (Table 11-6). -/
def causeBarrier : Nat := 6
/-- A cause code (Table 11-6). -/
def causeFetch : Nat := 7
/-- A cause code (Table 11-6). -/
def causeEnergy : Nat := 8
/-- A cause code (Table 11-6). -/
def causeFiller : Nat := 9
/-- A cause code (Table 11-6). -/
def causeThrottle : Nat := 10
/-- A cause code (Table 11-6). -/
def causeTrap : Nat := 11
/-- A cause code (Table 11-6). -/
def causePreempt : Nat := 12
/-- A cause code (Table 11-6). -/
def causeIdle : Nat := 13
/-- A cause code (Table 11-6). -/
def causeDebug : Nat := 14
/-- A cause code (Table 11-6). -/
def causeTransition : Nat := 15

/-! ### The charge stream (R223 to R225) -/

/-- The intermediate address of a virtual one in the context of a core, for a store of `n` bytes that is mapped. -/
def State.streamIa (s : State) (core va n : Nat) : Option Nat :=
  match (s.asidOf core).bind fun a => (s.ctx a).translate va n false true with
  | some ia => if (s.iaLoc ia true).isSome then some ia else none
  | none => none

/-- A store by the abacus, if it is mapped. -/
def State.streamPut (s : State) (core va : Nat) (bs : List Byte) : Option State :=
  (s.streamIa core va bs.length).map fun ia => s.partPut ia (s.ownerOf core false) bs

/-- The stream of a core changed. -/
def Core.modAcs (c : Core) (f : Acs → Acs) : Core := { c with acct := { c.acct with acs := f c.acct.acs } }

/-- HEAD of a core's stream, as the header holds it. -/
def State.streamHead (s : State) (core : Nat) : Nat :=
  match s.streamIa core ((s.core core).acct.acs.base.toNat + 8) 8 with
  | some ia => leNat (s.sideBytes .mem ia 4)
  | none => 0

/-- The read of HEAD reaches memory (R274). -/
def State.readHead (s : State) (core : Nat) : State :=
  match s.streamIa core ((s.core core).acct.acs.base.toNat + 8) 8 with
  | some ia => s.partLines ia 4 none
  | none => s

/-- The record is dropped (R225): DROPPED saturates and is copied to the header, and the positions join the gap. -/
def State.streamDrop (s : State) (core count : Nat) : State :=
  let a := (s.core core).acct.acs
  let d := Nat.min (a.dropped + 1) (2 ^ 32 - 1)
  let s := s.modCore core fun c => c.modAcs fun a => { a with dropped := d, gap := Nat.min (a.gap + count) (2 ^ 48 - 1) }
  (s.streamPut core (a.base.toNat + 16) (toLe 8 d)).getD s

/-- The stream stops on an error; the record counts as dropped. -/
def State.streamError (s : State) (core count : Nat) : State :=
  (s.streamDrop core count).modCore core fun c => c.modAcs fun a => { a with err := true }

/-- One record written at TAIL, which then advances (R225). -/
def State.streamRecord (s : State) (core : Nat) (dw0 dw1 : Nat) : Option State :=
  let a := (s.core core).acct.acs
  let slot := a.base.toNat + 64 + 16 * (a.tail.toNat % 2 ^ a.log2n.toNat)
  (s.streamPut core slot (toLe 8 dw0 ++ toLe 8 dw1)).bind fun s =>
    let s := s.modCore core fun c => c.modAcs fun a => { a with tail := a.tail + 1 }
    s.streamPut core a.base.toNat (toLe 8 ((a.tail + 1).toNat))

/-- A closed run is written, after a gap record where one is due, or dropped (R225). -/
def State.streamWrite (s : State) (core : Nat) (pc cause count : Nat) : State :=
  let a := (s.core core).acct.acs
  let n := 2 ^ a.log2n.toNat
  let used := fun s : State => ((s.core core).acct.acs.tail.toNat + 2 ^ 32 - s.streamHead core) % 2 ^ 32
  let s := s.readHead core
  if used s > n then s.streamError core count
  else if used s = n then s.streamDrop core count
  else
    let gapDone := if a.gap = 0 then some s
      else (s.streamRecord core 0 (a.gap + core * 2 ^ 52 + 2 ^ 63)).map fun s =>
        s.modCore core fun c => c.modAcs fun a => { a with gap := 0 }
    match gapDone with
    | none => s.streamError core count
    | some s =>
      if used s ≥ n then s.streamDrop core count
      else (s.streamRecord core pc (count + cause * 2 ^ 48 + core * 2 ^ 52)).getD (s.streamError core count)

/-- The open run of a core closes (R225). -/
def State.closeRun (s : State) (core : Nat) : State :=
  let a := (s.core core).acct.acs
  if a.en && !a.err && a.runCount != 0 then
    (s.streamWrite core a.runPc.toNat a.runCause a.runCount).modCore core fun c => c.modAcs fun a => { a with runCount := 0 }
  else s

/-- CHARGE_RUN_CLOSE (R225). -/
def execChargeRunClose (core : Nat) (s : State) : Out := .next (s.closeRun core)

/-- `n` slot positions of a core charged to a cause at a program counter (R217, R225). -/
def State.charge (s : State) (core : Nat) (pc : Word) (cause n : Nat) : State :=
  if n = 0 then s
  else
    let a := (s.core core).acct.acs
    let s := if a.en && !a.err && (a.runCount == 0 || a.runPc == pc && a.runCause == cause) then s else s.closeRun core
    s.modCore core fun c =>
      let a := c.acct.acs
      let acs := if a.en && !a.err then { a with runPc := pc, runCause := cause, runCount := a.runCount + n } else a
      { c with acct := { c.acct with live := c.acct.live.setIfInBounds cause (c.acct.live.getD cause 0 + n), acs := acs } }

/-- A cycle of a core charged whole to one cause (R217); it is held for one cycle. -/
def State.chargeCycle (s : State) (core : Nat) (pc : Word) (cause : Nat) : State :=
  (s.charge core pc cause 8).modCore core fun c => { c with acct := { c.acct with held := c.acct.held + 1 } }

/-- A cycle in which a bundle of `n` slots issues (R217). -/
def State.chargeIssue (s : State) (core : Nat) (pc : Word) (n : Nat) : State :=
  ((s.charge core pc causeIssued n).charge core pc causeEmpty (8 - n)).modCore core fun c =>
    { c with acct := { c.acct with held := c.acct.held + 1 } }

/-- ACS_ENABLE (R224): EN goes from 0 to 1. A LOG2N outside 4 to 24 has no stream, and sets ERR as a bad window does. -/
def execAcsEnable (core : Nat) (s : State) : Out :=
  let a := (s.core core).acct.acs
  if a.en then .next s
  else
    let n := a.log2n.toNat
    let ok := decide (4 ≤ n && n ≤ 24) &&
      ((s.asidOf core).bind fun x => (s.ctx x).translate a.base.toNat (64 + 16 * 2 ^ n) false true).isSome
    if !ok then .next (s.modCore core fun c => c.modAcs fun a => { a with en := true, err := true })
    else
      let s := s.modCore core fun c => c.modAcs fun a =>
        { a with en := true, tail := 0, dropped := 0, gap := 0, runCount := 0 }
      match (s.streamPut core a.base.toNat (toLe 8 0)).bind fun s => s.streamPut core (a.base.toNat + 16) (toLe 8 0) with
      | some s => .next s
      | none => .next (s.modCore core fun c => c.modAcs fun a => { a with err := true })

/-- ACS_DISABLE (R225): the open run closes and the stream stops. -/
def execAcsDisable (core : Nat) (s : State) : Out :=
  .next ((s.closeRun core).modCore core fun c => c.modAcs fun a => { a with en := false })

/-- A write of ACSCFG (R223, R224). -/
def State.acscfgWrite (s : State) (core : Nat) (v : BitVec 64) : Out :=
  let en := (s.core core).acct.acs.en
  let s := s.modCore core fun c => c.modAcs fun a =>
    let a := if rbit v 9 then { a with err := false } else a
    if en then a else { a with log2n := field v 0 5 }
  if rbit v 8 then execAcsEnable core s else if en then execAcsDisable core s else .next s

/-- ACSCFG as read (Table 11-10). -/
def Acs.cfg (a : Acs) : BitVec 64 :=
  BitVec.ofNat 64 (a.dropped * 2 ^ 32 + (if a.err then 512 else 0) + (if a.en then 256 else 0) + a.log2n.toNat)

/-! ### Write-back (R220, R221, R406) -/

/-- Where the account of a context lies: an intermediate address. -/
def State.acctIa (s : State) (asid : Option Nat) : Option Nat :=
  match asid with
  | some a => some (s.ctx a).acctIa
  | none =>
    let va := (s.regs.idleacct &&& ~~~63#64).toNat
    if fwWindow ≤ va && va + 256 ≤ fwWindow + 2 ^ 32 then
      some (s.regs.domain.toNat * 2 ^ 48 + (Config.fwBase + (va - fwWindow)) % 2 ^ 39)
    else none

/-- A doubleword at an intermediate address, and one written there. -/
def State.ia64 (s : State) (ia : Nat) : Nat := leNat (s.sideBytes .mem ia 8)
/-- A doubleword stored. -/
def State.putIa64 (s : State) (ia v : Nat) : State := s.putSide .mem ia (toLe 8 (v % 2 ^ 64))

/-- A core's live counters are added to the account of the context it runs, or of context 0, under the SEQ protocol, and set
to zero; its open run closes first (R220, R225). Context 0's counters are lost where IDLEACCT names no account. -/
def State.writeback (s : State) (core : Nat) : State :=
  let s := s.closeRun core
  let acct := (s.core core).acct
  let s := match s.acctIa (s.asidOf core) with
    | none => s
    | some ia =>
      let s := s.partLines ia 0x98 (some (s.acctOwner core))
      let s := s.putIa64 (ia + 0x88) (s.ia64 (ia + 0x88) + 1)
      let s := (List.range 16).foldl (fun (s : State) n => s.putIa64 (ia + 8 * n) (s.ia64 (ia + 8 * n) + acct.live.getD n 0)) s
      let s := s.putIa64 (ia + 0x80) (s.ia64 (ia + 0x80) + acct.held)
      let s := s.putIa64 (ia + 0x90) s.tick
      s.putIa64 (ia + 0x88) (s.ia64 (ia + 0x88) + 1)
  s.modCore core fun c => { c with acct := { c.acct with live := Vector.replicate 16 0, held := 0 } }

/-- Has a live counter reached 2^47 (R220)? -/
def Core.flushDue (c : Core) : Bool := decide (c.acct.held ≥ 2 ^ 47) || c.acct.live.any fun n => decide (n ≥ 2 ^ 47)

/-- ABACUS_FLUSH (R220). -/
def execAbacusFlush (core : Nat) (s : State) : Out :=
  if (s.core core).flushDue then .next (s.writeback core) else .next s

/-! ### Windows, filler and stalls (R212 to R216) -/

/-- IMB of some sums. -/
def imbalance (l : Vector Nat 4) : Nat :=
  let m := l.foldl Nat.max 0
  m - l.foldl Nat.min m

/-- WINDOW_END (R215): after 64 cycles. -/
def execWindowEnd (rod : Nat) (s : State) : Out :=
  let k := (s.rod rod).clk
  if k.wcyc < 64 then .next s
  else
    let imb := imbalance k.sums
    let overrun := if k.throt then 0 else if imb > 48 then k.overrun + 1 else 0
    .next (s.modRod rod fun r => { r with clk := { r.clk with
      lastImb := imb, overrun := if overrun ≥ 2 then 0 else overrun, throt := decide (overrun ≥ 2),
      window := k.window + 1, wcyc := 0, sums := Vector.replicate 4 0, adds := Vector.replicate 4 0,
      grant := k.grantNext.getD k.grant, grantNext := none } })

/-- Window 0 begins with every sum zero (R208, R212). -/
def RodClock.windowZero (k : RodClock) : RodClock :=
  { k with window := 0, wcyc := 0, sums := Vector.replicate 4 0, adds := Vector.replicate 4 0, lastImb := 0, overrun := 0, throt := false,
           fill := Vector.replicate 4 false, total := 0, grant := k.grantNext.getD k.grant, grantNext := none }

/-- The core whose turn it is in a rod's present cycle: positions in the order that rotates each window (R216). -/
def turnCore (rod : Nat) (k : RodClock) : Nat := 4 * rod + (k.window + k.turn) % 4

/-- Is it a core's turn? -/
def State.isTurn (s : State) (core : Nat) : Bool :=
  let k := (s.rod (rodOf core)).clk
  decide (k.turn < 4) && turnCore (rodOf core) k == core

/-- A core has had its turn: `w` units are counted for it. -/
def State.endTurn (s : State) (core w : Nat) : State :=
  s.modRod (rodOf core) fun r => { r with clk := { r.clk with
    turn := r.clk.turn + 1, adds := r.clk.adds.set (core % 4) w } }

/-- FILLER_BUNDLE (R214): it counts 3 and changes no architectural state. -/
def execFillerBundle (core : Nat) (s : State) : Out :=
  if s.isTurn core then .next ((s.chargeCycle core (s.core core).arch.pc causeFiller).endTurn core 3) else .next s

/-- STALL_BUNDLE (R216): it counts 0, and the bundle it displaced stays. -/
def execStallBundle (core : Nat) (s : State) : Out :=
  if s.isTurn core then .next ((s.chargeCycle core (s.core core).arch.pc causeEnergy).endTurn core 0) else .next s

/-- RODBAL (Table 11-3). -/
def RodClock.rodbal (k : RodClock) : BitVec 64 :=
  BitVec.ofNat 64 (k.window % 65536 * 2 ^ 48 + k.overrun * 2 ^ 32 + (if k.throt then 2 ^ 31 else 0) + k.lastImb * 65536 + imbalance k.sums)

/-- WSUM (Table 11-4). -/
def RodClock.wsum (k : RodClock) : BitVec 64 :=
  BitVec.ofNat 64 ((List.range 4).foldl (fun v i => v + k.sums.getD i 0 * 2 ^ (16 * i)) 0)

/-- GRANT as it acts (R216). -/
def grantUnits (g : Nat) : Nat := Nat.min g 6144

end Sys2Proof.Machine
end

