-- ==== Sys2Proof/Machine/Tokens.lean ====
section
/-!
DEFINITION. Tokens (R138, R296 to R299): what a token shows of its operations, the issue of engine operations, their
promises, completion and refusal, PROMISE_MISSED (R256), and the TOK group but for the probes.
-/
namespace Sys2Proof.Machine

/-- The operations of a token that still have a record. -/
def Arch.tokOps (a : Arch) (t : Tok) : List TokOp := t.ops.filterMap fun i => a.ops.find? fun o => o.id == i

/-- The state of a token (R297, R298). -/
def Arch.tokState (a : Arch) (t : Tok) : OpState :=
  let os := a.tokOps t
  if t.refused || os.any (fun o => o.st == .refused) then .refused
  else if os.all (fun o => o.st == .complete) then .complete
  else if os.all (fun o => o.st == .complete || o.st == .promised) then .promised
  else .unpromised

/-- Is a token complete or refused? -/
def Arch.tokEnded (a : Arch) (t : Tok) : Bool := a.tokState t == .complete || a.tokState t == .refused

/-- STATE codes (R297). -/
def OpState.code : OpState → Nat
  | .unpromised => 0 | .promised => 1 | .complete => 2 | .refused => 3

/-- STATUS of a token (R297, R298): zero while pending; for a joined token, that of the first refused operation, or the OR
of MISSED and FLAGS. -/
def Arch.tokStatus (a : Arch) (t : Tok) : BitVec 16 :=
  let os := a.tokOps t
  match a.tokState t with
  | .refused => match os.find? fun o => o.st == .refused with
    | some o => o.status
    | none => 0
  | .complete =>
    if t.join then os.foldl (fun v o => v ||| (o.status &&& 0x0FE0#16)) 0
    else os.foldl (fun v o => v ||| o.status) 0
  | _ => 0

/-- TKPROM's value once the token has left state 0 (R297, R298). A joined token that stands for no operation has no value
that the spec states: `free` (log 3). -/
def Arch.tokProm (a : Arch) (t : Tok) (free : Word) : Word :=
  if a.tokState t == .refused then 0
  else match a.tokOps t with
    | [] => if t.join then free else BitVec.ofNat 64 t.tick
    | os => BitVec.ofNat 64 (os.foldl (fun m o => Nat.max m (o.promise.getD o.doneTick)) 0)

/-- Token `k` as it stood before the bundle; k0 is complete (R122). -/
def State.rdTok (s : State) (k : BitVec 4) : Tok := if k = 0 then {} else s.me.latch.toks.getD k.toNat {}

/-- Token `k` written. -/
def State.putTok (s : State) (k : BitVec 4) (t : Tok) : State :=
  s.onMe fun c => c.modArch fun a => { a with toks := a.toks.setIfInBounds k.toNat t }

/-- The number the core's next operation will have. -/
def State.nextOp (s : State) : Nat := s.me.uid

/-- An operation known to tokens is added, and `kout` becomes pending on it (R138). -/
def State.newOp (s : State) (cls : OpClass) (kout : BitVec 4) : State :=
  let id := s.nextOp
  let s := s.onMe fun c => { c.modArch (fun a => { a with ops := a.ops ++ [{ id := id, cls := cls }] }) with uid := id + 1 }
  s.putTok kout { ops := [id] }

/-- An engine operation is issued (R138): it waits in its engine on the token `kin` as it stood before the bundle. -/
def State.issueEng (s : State) (kind : EngKind) (cls : OpClass) (kout kin : BitVec 4) : State :=
  let id := s.nextOp
  let t := s.rdTok kin
  (s.newOp cls kout).onMe fun c => { c with eng := { c.eng with eng := c.eng.eng ++ [{ id := id, kind := kind, kin := t, kout := kout }] } }

/-- The core or saved core of a kernel that an operation's arrival names by launch index, changed. -/
def State.modIdx (s : State) (kernel idx : Nat) (f : Core → Core) : State :=
  match s.kernel? kernel with
  | none => s
  | some k =>
    if k.st == .placed then s.modCore (k.cores.getD idx 0) f
    else s.modKernel kernel fun k => { k with saved := k.saved.set idx (f (k.saved.getD idx {})) }

/-- The cores and saved cores of the package, by number or reference. -/
def State.everyCore (s : State) : List Nat :=
  List.range 256 ++ (s.work.kernels.filter fun k => k.st != .placed).flatMap fun k =>
    (List.range k.saved.length).map fun i => 256 + 256 * k.num + i

/-- An operation's token record changed. -/
def Core.modOp (c : Core) (id : Nat) (f : TokOp → TokOp) : Core :=
  c.modArch fun a => { a with ops := a.ops.map fun o => if o.id == id then f o else o }

/-- An engine operation changed. -/
def Core.modEng (c : Core) (id : Nat) (f : EngOp → EngOp) : Core :=
  { c with eng := { c.eng with eng := c.eng.eng.map fun o => if o.id == id then f o else o } }

/-- Markers for another package that no earlier send of their channel holds back have entered it and leave the core (R327). -/
def Core.cullMarkers (c : Core) : Core :=
  let held := fun (m : EngOp) (x : Word) => c.eng.eng.any fun o => decide (o.id < m.id) && match o.kind with
    | .send _ _ _ y => y.extractLsb' 0 8 == x.extractLsb' 0 8
    | _ => false
  { c with eng := { c.eng with eng := c.eng.eng.filter fun o => match o.kind with
      | .marker x => o.aux == 0 || held o x
      | _ => true } }

/-- An engine operation leaves its engine. -/
def Core.dropEng (c : Core) (id : Nat) : Core :=
  ({ c with eng := { c.eng with eng := c.eng.eng.filter fun o => o.id != id } } : Core).cullMarkers

/-- The engine operation with a number. -/
def State.eng? (s : State) (core id : Nat) : Option EngOp := (s.core core).eng.eng.find? fun o => o.id == id

/-- The operation completes at `tick` with `status`; a late one records MISSED (R256). -/
def Core.complete (c : Core) (id tick : Nat) (status : BitVec 16) : Core :=
  (c.dropEng id).modOp id fun o =>
    let late := match o.promise with
      | some p => decide (p < tick)
      | none => false
    { o with st := .complete, doneTick := tick, status := status ||| (if late then 0x0800#16 else 0) }

/-- The operation is refused for a reason (Table 13-6). -/
def Core.refuse (c : Core) (id reason : Nat) : Core :=
  (c.dropEng id).modOp id fun o => { o with st := .refused, status := BitVec.ofNat 16 reason }

/-- The operation is accepted with a promised tick (R257). -/
def Core.promise (c : Core) (id p : Nat) : Core :=
  c.modOp id fun o => { o with st := .promised, promise := some p }

/-- The token of an operation, for detail words: the lowest register that stands for it, or the number it was issued
under. -/
def Arch.tokenOf (a : Arch) (id : Nat) : Nat :=
  ((List.range 16).find? fun k => (a.toks.getD k {}).ops.contains id).getD 0

/-- Does a core offer its operations to its engines: not from the end of a pre-emption's 24 cycles to the end of the restore (R260,
R333, R373 step 2, R379)? -/
def Core.offering (c : Core) : Bool :=
  match c.seq.pre with
  | .running | .requested _ => true
  | .landing _ n => n != 0
  | _ => false

/-- Is an engine operation's turn come in program order (Table 15-5, R283): every earlier store, acquire, row of the scratchpad and access
to a ring or queue that stores is performed, with what a row that was written is kept behind, and every FENCE before it is met? -/
def State.inOrder (s : State) (core id : Nat) : Bool :=
  s.fencesMet core id && !((s.core core).eng.memq.any fun o => decide (o.id < id) && !o.performed &&
    (o.kind.isStore || (o.kind.isLater && !o.kind.isTake) || o.acq || o.egate.any fun g => decide (g ≤ id)))

/-- May the engines take up operation `id`? -/
def State.engGo (s : State) (core id : Nat) : Bool := (s.core core).offering && s.inOrder core id

/-- The highest number among the operations that a token stands for, or that its components stood for. -/
def Tok.newest (t : Tok) : Nat := t.ops.foldl Nat.max t.top

/-- A core observes a token complete (R278, R281): its later accesses see what came before, and are kept behind the stores and acquires
that the token's operations are kept behind (Table 15-5). -/
def State.observe (s : State) (t : Tok) : State :=
  (s.catchUp s.act).gateFrom s.act s.me.uid (fun o => decide (o.id < t.newest) && (o.kind.isStore || o.acq)) fun _ => false

/-- TKWAIT (R296): its waiting holds the bundle at issue; the core then observes the token (R281). -/
def execTkwait (k : BitVec 4) (s : State) : Out := .next (s.observe (s.rdTok k))

/-- TKTEST (R297): a token read complete has been observed (R281). -/
def execTktest (k : BitVec 4) (xd : BitVec 5) (s : State) : Out :=
  let t := s.rdTok k
  let a := s.me.arch
  let v := (a.tokStatus t).toNat * 65536 + (if t.join then 4 else 0) + (a.tokState t).code
  xHeld xd (BitVec.ofNat 64 v) (if a.tokState t == .complete then s.observe t else s)

/-- TKPROM (R297): its result lands once the token has left state 0. -/
def execTkprom (k : BitVec 4) (xd : BitVec 5) (s : State) : Out :=
  let t := s.rdTok k
  if s.me.arch.tokState t == .unpromised then
    .next (s.onMe fun c => { c.interlock xd false with
      seq := { c.seq with promWait := c.seq.promWait ++ [(xd, t)] }, uid := c.uid + 1 })
  else
    let r := s.freeWord
    xHeld xd (s.me.arch.tokProm t r.1) r.2

/-- Does a TKPROM that waits land: its token has left state 0, and no earlier write to its register is in flight (R125)? -/
def Core.promLands (c : Core) (w : BitVec 5 × Tok) : Bool := c.arch.tokState w.2 != .unpromised && !c.arch.xInFlight w.1

/-- The TKPROMs of a core whose tokens have left state 0 land. -/
def State.settleProm (s : State) (core : Nat) : State :=
  let c := s.core core
  (c.seq.promWait.filter c.promLands).foldl (fun s w =>
    let r := s.freeWord
    r.2.modCore core fun c =>
      { c.putX w.1 (c.arch.tokProm w.2 r.1) with
        seq := { c.seq with promWait := c.seq.promWait.erase w },
        eng := { c.eng with ilk := c.eng.ilk.filter fun i => i.xd != w.1 } }) s

/-- The operations of a joined token (R298): components that are complete are dropped, and the others give every operation that
they stand for. -/
def State.joinOps (s : State) (ka kb kc : BitVec 4) : List Nat :=
  let a := s.me.arch
  ([ka, kb, kc].flatMap fun k => if a.tokState (s.rdTok k) == .complete then [] else (s.rdTok k).ops).eraseDups

/-- Those of them that are pending or refused, which TKJOIN waits to be at most 3 of. -/
def State.joinLive (s : State) (ka kb kc : BitVec 4) : List Nat :=
  (s.joinOps ka kb kc).filter fun i => match s.me.arch.ops.find? fun o => o.id == i with
    | some o => o.st != .complete
    | none => false

/-- TKJOIN (R298). A component that TKSET made refused keeps the joined token refused. -/
def execTkjoin (kd ka kb kc : BitVec 4) (s : State) : Out :=
  .next (s.putTok kd { join := true, ops := s.joinOps ka kb kc, refused := [ka, kb, kc].any fun k => (s.rdTok k).refused,
                       tick := s.tick, top := ([ka, kb, kc].map fun k => (s.rdTok k).newest).foldl Nat.max 0 })

/-- TKSET (R299). -/
def execTkset (kd : BitVec 4) (refused : BitVec 1) (s : State) : Out :=
  .next (s.putTok kd { refused := refused = 1, tick := s.tick })

/-- PROMISE_MISSED (R256): once TICK has passed the promise of an operation that is not complete, and the context runs on
the core, the class is pending there. The detail holds the token and the operation's status (Table 20-1). -/
def execPromiseMissed (core op : Nat) (s : State) : Out :=
  match (s.core core).arch.ops.find? fun o => o.id == op with
  | none => .next s
  | some o =>
    let late := match o.promise with
      | some p => decide (p < s.tick) && o.st != .refused && !(o.st == .complete && decide (o.doneTick ≤ p))
      | none => false
    if late && !o.missRaised && (s.core core).unit.kernel.isSome then
      let d := BitVec.ofNat 64 ((s.core core).arch.tokenOf op + o.status.toNat * 16)
      .next ((s.modCore core fun c => c.modOp op fun o => { o with missRaised := true }).pendTrap core 8 d)
    else .next s

end Sys2Proof.Machine
end

