-- ==== Sys2Proof/Machine/Control.lean ====
section
/-!
DEFINITION. Fetch, work units, control transfers and the system group (R48, R54 to R57, R115, R144 to R151, R155 to R164):
MAJ 0x03 to 0x05 and 0x07, with SLEEP_END, WAITW_END and FETCH_FILL.
-/
namespace Sys2Proof.Machine

/-! ### Fetch (R48, R115, R207, R376) -/

/-- The place a slot is fetched from (R48): the code section, or in privileged mode the firmware window and the code
mapping without its bound (R376). -/
def State.fetchLoc (s : State) (core pc : Nat) : Option Loc :=
  let priv := (s.core core).arch.priv
  if priv && decide (fwWindow ≤ pc) && decide (pc + 4 ≤ fwWindow + 2 ^ 32) then
    let o := (Config.fwBase + (pc - fwWindow)) % 2 ^ 39
    some (.dram o (s.regs.domain.toNat * 2 ^ 48 + o) true)
  else match s.imageOf core with
    | some i =>
      let lim := if priv then 0x1000000 else i.codeSize
      if codeBase ≤ pc && pc + 4 ≤ codeBase + lim then some (.code (i.addr + i.codeOff + (pc - codeBase))) else none
    | none => none

/-- The word at a place. -/
def State.fetchWord (s : State) (core pc : Nat) : Option (BitVec 32) :=
  (s.fetchLoc core pc).map fun l => BitVec.ofNat 32 (leNat (s.locBytes l 4))

/-- The words of the bundle at `pc`, up to its stop bit and at most `n`; none where one of them lies outside (R115). -/
def State.fetchGo (s : State) (core pc : Nat) : Nat → Option (List (BitVec 32))
  | 0 => some []
  | n + 1 => match s.fetchWord core pc with
    | none => none
    | some w => if w.msb then some [w] else (s.fetchGo core (pc + 4) n).map (w :: ·)

/-- The words of the bundle at `pc`. -/
def State.fetchBundle (s : State) (core : Nat) (pc : Word) : Option (List (BitVec 32)) := s.fetchGo core pc.toNat 8

/-- The address after the bundle at `pc`. -/
def State.afterBundle (s : State) (core : Nat) (pc : Word) : Word :=
  match s.fetchBundle core pc with
  | some ws => pc + BitVec.ofNat 64 (4 * ws.length)
  | none => pc + 4

/-- The last bundle of `n` bundles from `pc`, and the address after it. -/
def State.walkBody (s : State) (core : Nat) : Nat → Word → Word × Word
  | 0, pc => (pc, pc)
  | 1, pc => (pc, s.afterBundle core pc)
  | n + 2, pc => s.walkBody core (n + 1) (s.afterBundle core pc)

/-- FETCH_FILL (R207, R243): a line of code arrives in the L1. -/
def execFetchFill (core : Nat) (s : State) : Out :=
  match (s.core core).seq.fill with
  | some (addr, due) =>
    if due ≤ s.tick then
      .next (s.modCore core fun c => let c := c.l1Fill addr; { c with seq := { c.seq with fill := none } })
    else .next s
  | none => .next s

/-! ### Loop records and work units (R54 to R57) -/

/-- A loop record (Table 3-4). -/
structure LoopRec where
  pro : Nat
  ker : Nat
  epi : Nat
  trip : Nat
  stages : Nat
  triparg : Bool
  iter : Nat
  deriving DecidableEq, Repr, Inhabited

/-- Loop record `r` of an image. -/
def Image.loopRec (i : Image) (r : Nat) : LoopRec :=
  let o := i.le 0x18 4 + 32 * r
  ⟨i.le o 4, i.le (o + 4) 4, i.le (o + 8) 4, i.le (o + 12) 4, i.le (o + 16) 1, i.le (o + 17) 1 % 2 = 1, i.le (o + 18) 2⟩
/-- KIND 1: a persistent program. -/
def Image.persistent (i : Image) : Bool := i.le 0x06 2 = 1
/-- LOOPCNT. -/
def Image.loopCnt (i : Image) : Nat := i.le 0x16 2
/-- ARGBYTES. -/
def Image.argBytes (i : Image) : Nat := i.le 0x28 2
/-- A code address. -/
def codeAt (off : Nat) : Word := BitVec.ofNat 64 (codeBase + off)

/-- The loop record that an unprivileged core runs (R55). -/
def State.recordOf (s : State) (core : Nat) : Option LoopRec :=
  match s.imageOf core with
  | some i => if i.persistent || (s.core core).unit.ended then none else some (i.loopRec (s.core core).unit.record)
  | none => none

/-- Every work unit of a core has ended (R155). -/
def Core.endUnits (c : Core) : Core :=
  { c with arch := { c.arch with loops := c.arch.loops.map fun l => { l with isOpen := false } },
           unit := { c.unit with ended := true, starting := false, haltPc := c.arch.pc } }

/-- The trip count of a record (R55): a launch argument is read from the scratchpad as it stands. -/
def State.tripCount (s : State) (core : Nat) (i : Image) (r : LoopRec) : Nat :=
  if r.triparg then (if r.trip < i.argBytes / 8 then leNat ((s.core core).spad.bytes (8 * r.trip) 8) else 0) else r.trip

/-- The core starts its next record from `r` on, passing over those that end at once (R55). A short trip is recorded
(Table 22-2). `fuel` bounds the records passed over. -/
def State.startRecord (s : State) (core : Nat) (i : Image) : Nat → Nat → State
  | 0, _ => s.modCore core Core.endUnits
  | fuel + 1, r =>
    if r ≥ i.loopCnt then s.modCore core Core.endUnits
    else
      let l := i.loopRec r
      let t := s.tripCount core i l
      if t = 0 then s.startRecord core i fuel (r + 1)
      else if t < l.stages - 1 then
        let s := match s.asidOf core with
          | some a => s.modStatus a fun e => { e with ctxend := e.ctxend ||| 0x2000000000000000#64 }
          | none => s
        s.startRecord core i fuel (r + 1)
      else
        let n := t - (l.stages - 1)
        let sec := if l.pro ≠ l.ker then 0 else if n = 0 then 2 else 1
        let pc := if sec = 0 then l.pro else if sec = 1 then l.ker else l.epi
        s.modCore core fun c => { c with
          arch := { c.arch with pc := codeAt pc },
          unit := { c.unit with record := r, sec := sec, iters := n, secCyc := 0, overrun := false, started := true, starting := false, ended := false, wdog := 0 } }

/-- Must what comes after HALT still wait: a FENCE of its bundle is not met, or a row of the scratchpad has not moved? -/
def State.unitWaits (s : State) (core : Nat) : Bool :=
  (s.core core).seq.fence.any (fun f => !s.fenceMet core f.1 f.2) || (s.core core).eng.memq.any (·.kind.isRow)

/-- The records from the next one on start (R55). -/
def State.nextUnit (s : State) (core : Nat) (i : Image) : State :=
  let halt := (s.core core).unit.haltPc
  (s.startRecord core i i.loopCnt ((s.core core).unit.record + 1)).modCore core fun c => { c with unit := { c.unit with haltPc := halt } }

/-- Does the next record started from `r` on read a launch argument for its trip count (R55)? The records that end at once are passed over. -/
def Image.readsArg (i : Image) : Nat → Nat → Bool
  | 0, _ => false
  | fuel + 1, r =>
    let l := i.loopRec r
    !decide (i.loopCnt ≤ r) && (l.triparg || (decide (l.trip = 0 ∨ l.trip < l.stages - 1) && i.readsArg fuel (r + 1)))

/-- HALT's end of a work unit (R155): every loop level closes, and the next record starts. A record that takes its trip count from a launch
argument reads it as a VLD of the next bundle would, and so behind the FENCEs and rows of HALT's bundle (R55). -/
def State.haltUnit (s : State) (core : Nat) : State :=
  let s := s.modCore core fun c => { c with
    arch := { c.arch with loops := c.arch.loops.map fun l => { l with isOpen := false } },
    seq := { c.seq with redirected := true },
    unit := { c.unit with haltPc := c.latch.pc } }
  match s.imageOf core with
  | some i =>
    let r := (s.core core).unit.record + 1
    if i.persistent then s.modCore core fun c => { c.endUnits with unit := { c.endUnits.unit with haltPc := c.unit.haltPc } }
    else if s.unitWaits core && i.readsArg i.loopCnt r then
      s.modCore core fun c => { c with arch := { c.arch with pc := codeAt (i.loopRec r).pro }, unit := { c.unit with starting := true } }
    else s.nextUnit core i
  | none => s.modCore core fun c => { c.endUnits with unit := { c.unit with ended := true } }

/-- The unit that waited starts, in the first cycle of its core in which nothing of HALT's bundle is left. -/
def State.beginUnit (s : State) (core : Nat) : State :=
  match s.imageOf core with
  | some i => if (s.core core).unit.starting && !(s.core core).arch.priv && !s.unitWaits core then s.nextUnit core i else s
  | none => s

/-! ### Where fetch goes (R120, R146, R150, R151) -/

/-- Levels from `l` on closed. -/
def closeFrom (l : Nat) (ls : Vector LoopLvl 4) : Vector LoopLvl 4 := ls.mapIdx fun i v => if l ≤ i then { v with isOpen := false } else v

/-- The outermost level whose body does not hold a taken target closes, with every level inside it (R151). -/
def closeFor (target : Word) (ls : Vector LoopLvl 4) : Vector LoopLvl 4 :=
  match (List.range 4).find? fun i =>
      let v := ls.getD i {}
      v.isOpen && !(decide (v.start ≤ target) && decide (target < v.after)) with
  | some l => closeFrom l ls
  | none => ls

/-- The next fetch is `target`: a taken transfer (R144, R145, R151). -/
def Core.transfer (c : Core) (target : Word) : Core :=
  { c with arch := { c.arch with pc := target, loops := closeFor target c.arch.loops },
           seq := { c.seq with redirected := true } }

/-- Deltas applied at a loop-back (R150). -/
def Arch.addDeltas (a : Arch) (d : Vector (BitVec 64) 20) : Arch :=
  { a with a := a.a.mapIdx fun i v => v + d.getD i 0,
           c := a.c.mapIdx fun i v => v + (d.getD (16 + i) 0).truncate 6 }

/-- The loop-back at the issuing bundle, from level `l` outward (R150): the next fetch, if a level goes round again, and
the buffer and registers after it. -/
def Arch.loopBack (a : Arch) (pc : Word) : Nat → Option Word × Arch
  | 0 => (none, a)
  | l + 1 =>
    let v := a.loops.getD l {}
    if v.isOpen && v.last == pc then
      if v.rem > 1 then
        let a := { a with loops := closeFrom (l + 1) (a.loops.setIfInBounds l { v with rem := v.rem - 1 }) }
        (some v.start, a.addDeltas v.deltas)
      else ({ a with loops := a.loops.setIfInBounds l { v with isOpen := false } }).loopBack pc l
    else a.loopBack pc l

/-- Fetch reaches `next` without a taken transfer: the boundaries of the loop-record sections, where every level closes
(R55, R151). A boundary is reached by a bundle that starts there; `past` says that a walk may have passed it, which then goes
to it (log 20). A prologue that no iteration follows ends at KER, which is a point for a
pre-emption (Table 20-9). -/
def State.reach (s : State) (core : Nat) (next : Word) (past : Bool) : State :=
  let c := s.core core
  let at' := fun off : Nat => next == codeAt off || (past && decide (codeAt off ≤ next))
  let go := fun (sec iters : Nat) (off : Nat) => s.modCore core fun c => { c with
    arch := { c.arch with pc := codeAt off, loops := closeFrom 0 c.arch.loops },
    unit := { c.unit with sec := sec, iters := iters, secCyc := 0, overrun := false },
    seq := { c.seq with redirected := true } }
  let plain := s.modCore core fun c => { c with arch := { c.arch with pc := next }, seq := { c.seq with redirected := true } }
  if c.arch.priv then plain
  else match s.recordOf core with
    | none => plain
    | some r =>
      if c.unit.sec = 0 && at' r.ker then
        (if c.unit.iters = 0 then
          (go 2 0 r.epi).modCore core fun c => { c with unit := { c.unit with started := true } }
        else go 1 c.unit.iters r.ker)
      else if c.unit.sec = 1 && at' r.epi then
        (if c.unit.iters ≤ 1 then go 2 0 r.epi else go 1 (c.unit.iters - 1) r.ker)
      else plain

/-- The bundle that follows one without a taken transfer (R120): the first of a body at a loop-back, the bundle at KER or
EPI, or the next word. -/
def State.followOn (s : State) (core : Nat) : State :=
  let c := s.core core
  match c.arch.loopBack c.latch.pc 4 with
  | (some t, a) => s.modCore core fun c => { c with arch := { a with pc := t }, seq := { c.seq with redirected := true } }
  | (none, a) => (s.modCore core fun c => { c with arch := a }).reach core c.seq.next false

/-- Does a taken branch or jump leave its prologue or kernel section (R56, reason 5)? -/
def State.leavesSection (s : State) (core : Nat) (target : Word) : Bool :=
  let c := s.core core
  if c.arch.priv then false
  else match s.recordOf core with
    | none => false
    | some r =>
      if c.unit.sec = 0 then !(decide (codeAt r.pro ≤ target) && decide (target < codeAt r.ker))
      else if c.unit.sec = 1 then !(decide (codeAt r.ker ≤ target) && decide (target < codeAt r.epi))
      else false

/-- PC: slot 0 of the issuing bundle (R139). -/
def State.pcOf (s : State) : Word := s.me.latch.pc

/-- A taken branch or jump: reason 5 where it leaves its section, and nothing commits (R56, R130). -/
def State.take (s : State) (target : Word) : State :=
  if s.leavesSection s.act target then
    s.takeTrap s.act 2 (BitVec.ofNat 64 (5 * 256 + 2 ^ s.slot)) s.pcOf
  else s.onMe fun c => c.transfer target

/-! ### Branches and jumps (R144, R145) -/

/-- The target of a branch. -/
def State.brTarget (s : State) (off : BitVec 11) : Word := s.pcOf + sext64 off * 4

/-- A branch. -/
def branchForm (taken : Bool) (off : BitVec 11) (s : State) : Out :=
  .next (if taken then s.take (s.brTarget off) else s.followOn s.act)

/-- BEQ (R144). -/
def execBeq (xa xb : BitVec 5) (off : BitVec 11) (s : State) : Out := branchForm (s.rx xa == s.rx xb) off s
/-- BNE (R144). -/
def execBne (xa xb : BitVec 5) (off : BitVec 11) (s : State) : Out := branchForm (s.rx xa != s.rx xb) off s
/-- BLT (R144). -/
def execBlt (xa xb : BitVec 5) (off : BitVec 11) (s : State) : Out := branchForm ((s.rx xa).slt (s.rx xb)) off s
/-- BGE (R144). -/
def execBge (xa xb : BitVec 5) (off : BitVec 11) (s : State) : Out := branchForm (!(s.rx xa).slt (s.rx xb)) off s
/-- BLTU (R144). -/
def execBltu (xa xb : BitVec 5) (off : BitVec 11) (s : State) : Out := branchForm ((s.rx xa).ult (s.rx xb)) off s
/-- BGEU (R144). -/
def execBgeu (xa xb : BitVec 5) (off : BitVec 11) (s : State) : Out := branchForm (!(s.rx xa).ult (s.rx xb)) off s
/-- BP (R144). -/
def execBp (pn : BitVec 3) (off : BitVec 11) (s : State) : Out := branchForm (s.me.rdP pn) off s
/-- BNP (R144). -/
def execBnp (pn : BitVec 3) (off : BitVec 11) (s : State) : Out := branchForm (!s.me.rdP pn) off s

/-- The target of a direct jump. -/
def State.jTarget (s : State) (off : BitVec 17) : Word := s.pcOf + sext64 off * 4
/-- The target of an indirect jump. -/
def State.jrTarget (s : State) (x : BitVec 5) (off : BitVec 17) : Word := (s.rx x + sext64 off * 4) &&& ~~~3#64

/-- A jump that links: nothing is written where it leaves its section. -/
def linkForm (x : BitVec 5) (target : Word) (s : State) : Out :=
  if s.leavesSection s.act target then .next (s.take target)
  else .next ((s.onMe fun c => c.putX x c.seq.next).take target)

/-- J (R145). -/
def execJ (off : BitVec 17) (s : State) : Out := .next (s.take (s.jTarget off))
/-- JAL (R145). -/
def execJal (x : BitVec 5) (off : BitVec 17) (s : State) : Out := linkForm x (s.jTarget off) s
/-- JR (R145). -/
def execJr (x : BitVec 5) (off : BitVec 17) (s : State) : Out := .next (s.take (s.jrTarget x off))
/-- JALR (R145). -/
def execJalr (x : BitVec 5) (off : BitVec 17) (s : State) : Out := linkForm x (s.jrTarget x off) s

/-! ### The loop group (R148, R149) -/

/-- LOOP (R148): a new level closes it and every level inside it; the body is the `len + 1` bundles that follow. A count of
zero walks past the body, one cycle for each bundle. -/
def execLoop (lvl : BitVec 2) (xc : BitVec 5) (len : BitVec 8) (s : State) : Out :=
  let n := len.toNat + 1
  let t := (s.rx xc).toNat
  let c := s.me
  let body := s.walkBody s.act n c.seq.next
  let target := if t = 0 then body.2 else c.seq.next
  let s := s.onMe fun c =>
    let c := { c with arch := { c.arch with loops := closeFrom lvl.toNat c.arch.loops } }
    let c := c.transfer target
    if t = 0 then { c with seq := { c.seq with walk := n } } else c
  let unit := s.me.unit
  let s := s.reach s.act target (t = 0)
  if t ≠ 0 && s.me.unit == unit then
    .next (s.onMe fun c => c.modArch fun a =>
      let v := { a.loops.getD lvl.toNat {} with isOpen := true, rem := t, start := target, last := body.1, after := body.2 }
      { a with loops := a.loops.setIfInBounds lvl.toNat v })
  else .next s

/-- LDELTA (R149). -/
def execLdelta (lvl : BitVec 2) (target : DeltaTarget) (imm : BitVec 15) (s : State) : Out :=
  let g := match target with
    | .addr r => r.toNat
    | .cursor r => 16 + r.toNat
  .next (s.onMe fun c => { c.modArch (fun a =>
      let v := a.loops.getD lvl.toNat {}
      { a with loops := a.loops.setIfInBounds lvl.toNat { v with deltas := v.deltas.setIfInBounds g (sext64 imm) } }) with
    seq := { c.seq with bundleDeltas := c.seq.bundleDeltas ++ [(lvl.toNat, g)] } })

/-- LBRK (R149). -/
def execLbrk (lvl : BitVec 2) (s : State) : Out :=
  .next (s.onMe fun c => c.modArch fun a =>
    let v := a.loops.getD lvl.toNat {}
    { a with loops := a.loops.setIfInBounds lvl.toNat (if v.isOpen then { v with rem := 1 } else v) })

/-- LCLR (R149): an entry that an LDELTA of the same bundle sets stays set. -/
def execLclr (lvl : BitVec 2) (s : State) : Out :=
  .next (s.onMe fun c => c.modArch fun a =>
    let v := a.loops.getD lvl.toNat {}
    let ds := v.deltas.mapIdx fun g d => if c.seq.bundleDeltas.contains (lvl.toNat, g) then d else 0
    { a with loops := a.loops.setIfInBounds lvl.toNat { v with deltas := ds } })

/-! ### The system group (R155 to R164) -/

/-- PRIV at the issuing bundle, with the mask of the acting slot (R131). -/
def privTrap (s : State) : Out := .next (s.takeTrap s.act 3 (BitVec.ofNat 64 (2 ^ s.slot)) s.pcOf)

/-- HALT (R155). -/
def execHalt (s : State) : Out := .next (s.haltUnit s.act)

/-- TRAP (R156): its class after the bundle, with the bundle that follows by R120 as return address. -/
def execTrap (imm : BitVec 16) (s : State) : Out :=
  let s := s.followOn s.act
  .next (s.raiseTrap s.act 5 (zext64 imm) s.me.arch.pc)

/-- BRK (R156, R384): a debugger's halt where one is attached. -/
def execBrk (imm : BitVec 16) (s : State) : Out :=
  let s := s.followOn s.act
  if s.me.dbg.attach then
    .next (s.onMe fun c => { c with dbg := { c.dbg with halted := true, why := 2 } })
  else .next (s.raiseTrap s.act 6 (zext64 imm) s.me.arch.pc)

/-- RFE (R157, R375). -/
def execRfe (s : State) : Out := if s.me.latch.priv then .next (s.returnTrap s.act) else privTrap s

/-- The tick at which TICK, which wraps at 2^64, reads a value in its present round (R4, R154). -/
def State.tickAt (s : State) (w : Nat) : Nat := s.tick / 2 ^ 64 * 2 ^ 64 + w

/-- SLEEPU (R158). -/
def execSleepu (xs : BitVec 5) (s : State) : Out :=
  let w := s.tickAt (s.rx xs).toNat
  let s := s.followOn s.act
  .next (if w ≤ s.tick then s else s.onMe fun c => { c with seq := { c.seq with sleepTo := some w } })

/-- SLEEP_END (R158). -/
def execSleepEnd (core : Nat) (s : State) : Out :=
  match (s.core core).seq.sleepTo with
  | some w => if w ≤ s.tick then .next (s.modCore core fun c => { c with seq := { c.seq with sleepTo := none } }) else .next s
  | none => .next s

/-- FENCE (R159, R283). -/
def execFence (scope : Scope) (s : State) : Out :=
  .next (s.onMe fun c => { c with seq := { c.seq with fence := c.seq.fence ++ [(scope, c.uid)] } })

/-- OPSEL (R160). DESIGN CHOICE: of two in one bundle, the request of the higher slot stands (log 19). -/
def execOpsel (point : BitVec 3) (s : State) : Out := .next (s.onMe fun c => c.modArch fun a => { a with opNext := some point.toNat })

/-- YIELD (R162): the quantum of the core's kernel ends at the next cycle, or earlier where another YIELD has it end before. -/
def execYield (s : State) : Out :=
  let s := s.followOn s.act
  .next (match s.kernelOf s.act with
    | some k =>
      let t := s.now + (s.rod (rodOf s.act)).clk.period
      s.modKernel k.num fun k => { k with yielded := some (Nat.min t (k.yielded.getD t)) }
    | none => s)

/-- WAITW (R163): a wake write since the last WAITW ended ends it at once. Of two in a bundle the later tick holds. -/
def execWaitw (xs : BitVec 5) (s : State) : Out :=
  if !s.me.latch.priv then privTrap s
  else
    let w := s.tickAt (s.rx xs).toNat
    .next (s.onMe fun c =>
      if c.seq.wakeFlag || w ≤ s.tick then { c with seq := { c.seq with wakeFlag := false } }
      else { c with seq := { c.seq with waitw := some (Nat.max w (c.seq.waitw.getD 0)) } })

/-- WAITW_END (R163). -/
def execWaitwEnd (core : Nat) (s : State) : Out :=
  match (s.core core).seq.waitw with
  | some w =>
    if w ≤ s.tick || (s.core core).seq.wakeFlag then
      .next (s.modCore core fun c => { c with seq := { c.seq with waitw := none, wakeFlag := false } })
    else .next s
  | none => .next s

/-- ACCRD (R164): the counter as it stood before the cycle in which the bundle issues. -/
def execAccrd (xd : BitVec 5) (cause : BitVec 4) (s : State) : Out :=
  let n := s.me.seq.width
  let own := if n = 0 then 0 else if cause = 0 then n else if cause = 1 then 8 - n else 0
  xForm xd (BitVec.ofNat 64 ((s.me.acct.live.getD cause.toNat 0 - own) % 2 ^ 48)) s

/-- RDCYC (R153). -/
def execRdcyc (xd : BitVec 5) (s : State) : Out := xForm xd (BitVec.ofNat 64 s.me.cyc) s

end Sys2Proof.Machine
end

