-- ==== Sys2Proof/Machine/Sync.lean ====
section
/-!
DEFINITION. Barriers, byte barriers, reorder rings and the priority queue (R301 to R310): the SYNC group, with
BARRIER_ARRIVAL and TICKET_GRANT.
-/
namespace Sys2Proof.Machine

/-! ### Scoped barriers (R285, R301, R302) -/

/-- Launch index of a core in its kernel (R69). -/
def State.idxOf (s : State) (core : Nat) : Nat := (s.core core).unit.idx

/-- BAR (R301): scope 3 is refused at issue. -/
def execBar (scope : Scope) (xs : BitVec 5) (kout kin : BitVec 4) (s : State) : Out :=
  let id := s.nextOp
  let s' := s.issueEng (.bar scope (s.rx xs)) .barrier kout kin
  .next (if scope == .chip then s'.onMe fun c => c.refuse id 10 else s')

/-- The kernel, launch index and scope members of a core's arrival: participants by launch index (R302). -/
def State.barParts (s : State) (core : Nat) (scope : Scope) : List Nat :=
  match s.kernelOf core with
  | none => [0]
  | some k =>
    let ix := (List.range k.cores.length).zip k.cores
    match scope with
    | .rod => (ix.filter fun e => rodOf e.2 == rodOf core).map (·.1)
    | .panel => (ix.filter fun e => panelOf e.2 == panelOf core).map (·.1)
    | _ => [s.idxOf core]

/-- The rod or panel that holds a live instance: that of its lowest participant now; none while its kernel is saved (R302). -/
def State.barHome (s : State) (b : BarInst) : Option Nat :=
  (s.kernel? b.kernel).bind fun k =>
    let core := k.cores.getD (b.parts.headD 0) 0
    if k.st != .placed then none
    else match b.scope with
      | .rod => some (rodOf core)
      | .panel => some (panelOf core)
      | _ => none

/-- Live instances that count against a rod's or panel's 16, or a package's 64 (R302). -/
def State.barLive (s : State) (scope : Scope) (home : Nat) : Nat :=
  (s.fabric.bars.filter fun b => b.scope == scope && (scope == .domain || s.barHome b == some home)).length

/-- Has an instance one arrival from every participant (R302)? -/
def BarInst.full (b : BarInst) : Bool := decide (b.count ≤ ((b.arrivals.map fun e => (e.1, e.2.1)).eraseDups).length)

/-- Every arrival of a closed instance completes at this tick (R302). -/
def State.barClose (s : State) (b : BarInst) : State :=
  b.arrivals.foldl (fun s e => s.modIdx e.1 e.2.1 fun c => c.complete e.2.2 s.tick 0)
    { s with fabric := { s.fabric with bars := s.fabric.bars.erase b } }

/-- One arrival: it joins the live instance with its TAG, or opens one; a full instance closes. None: no instance is
free, and the arrival waits. -/
def State.barJoin (s : State) (scope : Scope) (kernel idx op : Nat) (tag : BitVec 16) (count : Nat) (parts : List Nat)
    (home : Nat) : Option State :=
  let mine := fun b : BarInst => b.scope == scope && b.tag == tag &&
    (scope == .domain || (b.kernel == kernel && b.parts.contains idx))
  let join := fun (s : State) (b : BarInst) =>
    let b' := { b with arrivals := b.arrivals ++ [(kernel, idx, op)] }
    let s := { s with fabric := { s.fabric with bars := s.fabric.bars.map fun e => if e == b then b' else e } }
    if b'.full then s.barClose b' else s
  match s.fabric.bars.find? mine with
  | some b => some (join s b)
  | none =>
    if s.barLive scope home ≥ (if scope == .domain then 64 else 16) then none
    else
      let b : BarInst := ⟨scope, kernel, tag, count, parts, []⟩
      some (join { s with fabric := { s.fabric with bars := s.fabric.bars ++ [b] } } b)

/-- BARRIER_ARRIVAL (R302): once its kin is complete and its fence satisfied. A core number of 256 or above names a core of
another package (log 1), whose domain arrival has TAG `op mod 65536` and COUNT `op / 65536`. -/
def execBarrierArrival (core op : Nat) (s : State) : Out :=
  if core ≥ 256 then
    let tag := BitVec.ofNat 16 op
    match s.fabric.bars.find? fun b => b.scope == .domain && b.tag == tag with
    | some b => if b.count = op / 65536 then .next ((s.barJoin .domain 0 core op tag b.count [] 0).getD s) else .next s
    | none => .next ((s.barJoin .domain 0 core op tag (op / 65536) [] 0).getD s)
  else match s.eng? core op with
  | none => .next s
  | some o =>
    match o.kind with
    | .bar scope x =>
      let a := (s.core core).arch
      if o.accepted || !s.engGo core op || !a.tokEnded o.kin then .next s
      else if a.tokState o.kin == .refused then .next (s.modCore core fun c => c.refuse op 1)
      else if !s.fenceMet core scope op then .next s
      else
        let tag := x.truncate 16
        let done := fun s : State => s.modCore core fun c => c.modEng op fun o => { o with accepted := true }
        let kn := ((s.core core).unit.kernel).getD 0
        let parts := s.barParts core scope
        match scope with
        | .core => .next (s.modCore core fun c => c.complete op s.tick 0)
        | .domain =>
          let count := (x.extractLsb' 16 12).toNat + 1
          match s.fabric.bars.find? fun b => b.scope == .domain && b.tag == tag with
          | some b =>
            if b.count != count then .next (s.modCore core fun c => c.refuse op 11)
            else .next (((done s).barJoin .domain kn (s.idxOf core) op tag count [] 0).getD s)
          | none => .next (((done s).barJoin .domain kn (s.idxOf core) op tag count [] 0).getD s)
        | .rod => .next (((done s).barJoin .rod kn (s.idxOf core) op tag parts.length parts (rodOf core)).getD s)
        | .panel => .next (((done s).barJoin .panel kn (s.idxOf core) op tag parts.length parts (panelOf core)).getD s)
        | .chip => .next s
    | _ => .next s

/-! ### Byte barriers (R303, R304) -/

/-- Every BARBW pending on a byte barrier is refused PRED. -/
def Core.refuseBarbw (c : Core) (n : BitVec 4) : Core :=
  (c.eng.eng.filter fun o => match o.kind with
    | .barbw m => m = n
    | _ => false).foldl (fun c o => c.refuse o.id 1) c

/-- A byte barrier moves by `d`, clamped at the ends of its range (R303). -/
def Core.barbMove (c : Core) (n : BitVec 4) (d : Int) (arm : Bool) : Core :=
  let b := c.arch.bbars.getD n.toNat {}
  let v := b.c + d
  let lo : Int := -140737488355328
  let hi : Int := 281474976710655
  let b' : ByteBar := ⟨if v < lo then lo else if v > hi then hi else v, b.armed || arm⟩
  let c := c.modArch fun a => { a with bbars := a.bbars.setIfInBounds n.toNat b' }
  if v < lo || v > hi then c.refuseBarbw n else c

/-- BARBA (R303). -/
def execBarba (n : BitVec 4) (xs : BitVec 5) (s : State) : Out :=
  .next (s.onMe fun c => c.barbMove n ((s.rx xs).toNat % 2 ^ 48 : Nat) true)

/-- BARBW (R304). -/
def execBarbw (n kout kin : BitVec 4) (s : State) : Out := .next (s.issueEng (.barbw n) .barrier kout kin)

/-- Does a BARBW complete now, or is it refused PRED with its kin (R304)? It completes once what FENCE.core would wait for is
satisfied, as it names no scope (R285, log 34). -/
def State.barbwEnds (s : State) (core : Nat) (o : EngOp) : Bool :=
  let c := s.core core
  match o.kind with
  | .barbw n =>
    let b := c.arch.bbars.getD n.toNat {}
    s.engGo core o.id && (c.arch.tokState o.kin == .refused ||
      (c.arch.tokState o.kin == .complete && b.armed && b.c == 0 && s.fenceMet core .core o.id))
  | _ => false

/-- The BARBWs of a core that end now (R304). -/
def State.settleBarbw (s : State) (core : Nat) : State :=
  ((s.core core).eng.eng.filter (s.barbwEnds core)).foldl (fun s o => s.modCore core fun c =>
    if c.arch.tokState o.kin == .refused then c.refuse o.id 1 else c.complete o.id s.tick 0) s

/-! ### Reorder rings (R305 to R308) -/

/-- Slots of a ring. -/
def Ring.size (r : Ring) : Nat := 2 ^ r.log2n

/-- Ring `n` if the context that holds a core holds it. -/
def State.ringOf (s : State) (core n : Nat) : Option Ring :=
  match s.fabric.rings.getD n none with
  | some r => if s.asidOf core == some r.asid then some r else none
  | none => none

/-- Ring `n` replaced. -/
def State.putRing (s : State) (n : Nat) (r : Option Ring) : State :=
  { s with fabric := { s.fabric with rings := s.fabric.rings.setIfInBounds n r } }

/-- May RTICK hand out a ticket (R306)? -/
def Ring.hasTicket (r : Ring) : Bool := decide ((r.ticket - (r.head - r.taken)).toNat < r.size)

/-- Can a class-0 access of the acting core to a ring or a queue take its place in the order now (R279, R287)? -/
def State.ringNow (s : State) : Bool := (s.pump s.act).ringTurn s.act s.me.uid

/-- It takes its place: earlier accesses are performed, and later reads see what it sees. -/
def State.ringAccess (s : State) : State := (s.pump s.act).catchUp s.act

/-- Such an access with a result, still to come to its place: its register is held (R127). -/
def State.deferX (s : State) (i : Instr) (xd : BitVec 5) : Out :=
  .next (((s.pump s.act).onMe fun c => c.interlock xd false).defer i xd 0 0 0 0)

/-- RTICK (R306). A class-0 access: it waits for its place in the order, and for a ticket. -/
def execRtick (ring : BitVec 8) (xd : BitVec 5) (s : State) : Out :=
  let wait : Out := .next ((s.pump s.act).onMe fun c => { c.interlock xd false with
    seq := { c.seq with ticketWait := c.seq.ticketWait ++ [(c.uid, ring, xd)] }, uid := c.uid + 1 })
  if !s.ringNow then wait
  else
    let s := s.ringAccess
    match s.ringOf s.act ring.toNat with
    | none => xHeld xd (BitVec.allOnes 64) s
    | some r =>
      if r.hasTicket then xHeld xd (zext64 r.ticket) (s.putRing ring.toNat (some { r with ticket := r.ticket + 1 })) else wait

/-- Is the turn of the oldest waiting RTICK of a core come: the accesses before it performed and the FENCEs met, and no earlier write to
its register in flight? -/
def State.ticketTurn (s : State) (core : Nat) : Bool :=
  let c := s.core core
  match c.seq.ticketWait with
  | [] => false
  | (id, _, xd) :: _ => s.ringTurn core id && !c.arch.xInFlight xd

/-- TICKET_GRANT (R306): the oldest waiting RTICK of a core takes its ticket. -/
def execTicketGrant (core : Nat) (s : State) : Out :=
  match (s.core core).seq.ticketWait with
  | [] => .next s
  | (id, ring, xd) :: rest =>
    if !s.ticketTurn core then .next s else
    let land := fun (v : Word) (s : State) => (s.modCore core fun c =>
      { c.putX xd v with
        seq := { c.seq with ticketWait := rest },
        eng := { c.eng with ilk := c.eng.ilk.filter fun i => i.id != id } }).catchUp core |>.pump core
    match s.ringOf core ring.toNat with
    | none => .next (land (BitVec.allOnes 64) s)
    | some r =>
      if r.hasTicket then .next (land (zext64 r.ticket) (s.putRing ring.toNat (some { r with ticket := r.ticket + 1 })))
      else .next s

/-- Full slots in a row from slot index `i`, at most `n`. -/
def fullRun (full : List Bool) (size : Nat) (i : Nat) : Nat → Nat
  | 0 => 0
  | n + 1 => if full.getD (i % size) false then 1 + fullRun full size (i + 1) n else 0

/-- Slots from index `i`, `n` of them, marked. -/
def markSlots (full : List Bool) (size i n : Nat) (b : Bool) : List Bool :=
  (List.range n).foldl (fun l k => l.set ((i + k) % size) b) full

/-- RTAKE on a ring by a core: its value, and the ring after it (R306). -/
def State.ringTake (s : State) (core : Nat) (ring : BitVec 8) : Word × State :=
  match s.ringOf core ring.toNat with
  | none => (BitVec.allOnes 64, s)
  | some r =>
    let full := markSlots r.full r.size (r.head - r.taken).toNat r.taken.toNat false
    let n := fullRun full r.size r.head.toNat r.size
    (BitVec.ofNat 64 (r.head.toNat + n * 2 ^ 32),
      s.putRing ring.toNat (some { r with full := full, head := r.head + BitVec.ofNat 32 n, taken := BitVec.ofNat 32 n }))

/-- RTAKE (R306). -/
def execRtake (ring : BitVec 8) (xd : BitVec 5) (s : State) : Out :=
  if !s.ringNow then s.deferX (.rtake ring xd) xd
  else
    let r := s.ringAccess.ringTake s.act ring
    xHeld xd r.1 r.2

/-- How an RWAIT ends now, if it does (R306): 0 complete; else the reason of its refusal, PRED with its kin, or NO_RING where the
ring is not held. -/
def State.rwaitEnds (s : State) (core : Nat) (o : EngOp) : Option Nat :=
  match o.kind with
  | .rwait ring =>
    if !s.engGo core o.id then none
    else match (s.core core).arch.tokState o.kin with
      | .refused => some 1
      | .complete => match s.ringOf core ring.toNat with
        | none => some 12
        | some r => if r.full.getD (r.head.toNat % r.size) false && !(r.taken.toNat ≥ r.size) then some 0 else none
      | _ => none
  | _ => none

/-- The RWAITs of a core that end now (R306). -/
def State.settleRwait (s : State) (core : Nat) : State :=
  (s.core core).eng.eng.foldl (fun s o => match s.rwaitEnds core o with
    | some 0 => s.modCore core fun c => c.complete o.id s.tick 0
    | some n => s.modCore core fun c => c.refuse o.id n
    | none => s) s

/-- The fields of RINGCFG, but for EN, that the context of a core has for a ring. -/
def State.ringReg (s : State) (core n : Nat) : BitVec 64 :=
  match s.asidOf core with
  | some a => (((s.ctx a).ringRegs.find? fun e => e.1 == n).map (·.2)).getD 0
  | none => 0

/-- Those fields replaced. -/
def State.putRingReg (s : State) (core n : Nat) (v : BitVec 64) : State :=
  match s.asidOf core with
  | some a => s.modCtx a fun c => { c with ringRegs := (n, v) :: c.ringRegs.filter fun e => e.1 != n }
  | none => s

/-- ERR of a ring is set for the context of a core (R307). -/
def State.ringErr (s : State) (core n : Nat) : State := s.putRingReg core n (s.ringReg core n ||| BitVec.ofNat 64 (2 ^ 50))

/-- RFILL (R307): sets ERR where the ring is not held, the ticket is not open or the offset is bad. An RWAIT that waits for the slot
completes with its full mark. -/
def State.ringFill (s : State) (core : Nat) (ring : BitVec 8) (x a : Word) : State :=
  match s.ringOf core ring.toNat with
  | none => s.ringErr core ring.toNat
  | some r =>
    let t : BitVec 32 := x.truncate 32
    let e := a.toNat
    let n := 2 ^ r.slotlog
    let i := t.toNat % r.size
    let isOpen := decide ((t - r.head).toNat < (r.ticket - r.head).toNat) && !r.full.getD i false
    if isOpen && e % 64 == 0 && decide (e + n ≤ (s.core core).spadSize) then
      let s := s.putSide (.staging r.slice) (r.base * 64 + i * n) ((s.core core).spad.bytes e n)
      (List.range 256).foldl State.settleRwait (s.putRing ring.toNat (some { r with full := r.full.set i true }))
    else s.ringErr core ring.toNat

/-- RFILL (R307), in its place in the order. -/
def execRfill (ring : BitVec 8) (xs : BitVec 5) (ar : BitVec 4) (s : State) : Out :=
  if !s.ringNow then .next ((s.pump s.act).defer (.rfill ring xs ar) 0 0 (s.rx xs) (s.ra ar) 0)
  else .next (s.ringAccess.ringFill s.act ring (s.rx xs) (s.ra ar))

/-- RWAIT (R306). -/
def execRwait (ring : BitVec 8) (kout kin : BitVec 4) (s : State) : Out := .next (s.issueEng (.rwait ring) .barrier kout kin)

/-- The RWAITs of a core on a ring are refused NO_RING. -/
def Core.refuseRwaits (n : Nat) (c : Core) : Core :=
  (c.eng.eng.filter fun o => match o.kind with
    | .rwait m => m.toNat == n
    | _ => false).foldl (fun (c : Core) o => c.refuse o.id 12) c

/-- A ring is freed, and the RWAITs on it of every core of its context, saved ones included, are refused NO_RING at once (R305). -/
def State.dropRing (s : State) (n : Nat) : State :=
  match s.fabric.rings.getD n none with
  | none => s
  | some r => s.everyCore.foldl (fun (s : State) c =>
      if s.asidAt c == some r.asid then s.modCoreAt c (Core.refuseRwaits n) else s) (s.putRing n none)

/-- May a claim of a ring with some fields succeed (R305)? -/
def State.ringClaim (s : State) (core n slotlog log2n slice base : Nat) : Bool :=
  let sl := (s.rod slice).slice
  let held := match s.kernelOf core with
    | some k => k.rods.contains slice
    | none => false
  let taken := (s.fabric.rings.getD n none).isSome && (s.ringOf core n).isNone
  !taken && decide (6 ≤ slotlog) && decide (slotlog ≤ 12) && decide (1 ≤ log2n) && decide (log2n ≤ 12) && held &&
    decide (base * 64 + 2 ^ (slotlog + log2n) ≤ Nat.min sl.ways sl.waysNew * 524288) &&
    !sl.disabledIn (base * 64) (2 ^ (slotlog + log2n))

/-- The fields of RINGCFG that a write sets: SLICE, BASE, SLOTLOG and LOG2N (Table 16-5). -/
def ringFields : BitVec 64 := 0x0000FCFFFF8F000F

/-- A write of RINGCFG (R305): its fields are set, ERR clears where a 1 is written, and EN claims the ring or frees it. A claim that
is refused leaves the ring not held, as EN then reads 0. -/
def State.ringcfgWrite (s : State) (core : Nat) (v : BitVec 64) : State :=
  let n := (s.core core).arch.ctl.ringsel.toNat
  let slotlog := rfield v 16 4
  let log2n := rfield v 0 4
  let slice := rfield v 42 6
  let base := rfield v 23 17
  let ok := s.ringClaim core n slotlog log2n slice base
  let old := s.ringReg core n
  let err := if rbit old 50 && !rbit v 50 then 2 ^ 50 else 0
  let ref := if rbit v 48 then (if ok then 0 else 2 ^ 49) else if rbit old 49 then 2 ^ 49 else 0
  let s := s.putRingReg core n ((v &&& ringFields) ||| BitVec.ofNat 64 (err + ref))
  if rbit v 48 && ok then
    s.putRing n (some {
      asid := (s.asidOf core).getD 0, slice := slice, base := base, slotlog := slotlog, log2n := log2n,
      full := List.replicate (2 ^ log2n) false })
  else if (s.ringOf core n).isSome then s.dropRing n
  else s

/-- RINGCFG as a core reads it (Table 16-5): 0 for a ring that another context holds. -/
def State.ringcfg (s : State) (core : Nat) : BitVec 64 :=
  let n := (s.core core).arch.ctl.ringsel.toNat
  match s.ringOf core n with
  | some _ => s.ringReg core n ||| BitVec.ofNat 64 (2 ^ 48)
  | none => if (s.fabric.rings.getD n none).isSome then 0 else s.ringReg core n

/-- RINGSTAT as a core reads it (Table 16-6). -/
def State.ringstat (s : State) (core : Nat) : BitVec 64 :=
  match s.ringOf core (s.core core).arch.ctl.ringsel.toNat with
  | some r => r.ticket ++ r.head
  | none => 0

/-- The rings of a slice are freed when its rod is released (R305). -/
def State.freeRings (s : State) (slice : Nat) : State :=
  ((List.range 256).filter fun n => match s.fabric.rings.getD n none with
    | some g => g.slice == slice
    | none => false).foldl State.dropRing s

/-! ### The priority queue (R309, R310) -/

/-- Entries of the acting core's context on its die. -/
def State.pqMine (s : State) (core : Nat) : List PqEntry :=
  (s.die (dieOf core)).pq.filter fun e => s.asidOf core == some e.asid

/-- A PQSTAT flag of a core. -/
def Core.setPq (c : Core) (empty refused : Bool) : Core :=
  c.modArch fun a => { a with ctl := { a.ctl with pqEmpty := a.ctl.pqEmpty || empty, pqRefused := a.ctl.pqRefused || refused } }

/-- PQPUSH by a core of a key and a value (R309). -/
def State.pqPush (s : State) (core : Nat) (k v : Word) : State :=
  let key : BitVec 32 := k.truncate 32
  let asid := (s.asidOf core).getD 0
  if key = BitVec.allOnes 32 || decide ((s.pqMine core).length ≥ (s.ctx asid).pqQuota)
      || decide ((s.die (dieOf core)).pq.length ≥ 65536) then s.modCore core fun c => c.setPq false true
  else s.modDie (dieOf core) fun d => { d with pq := d.pq ++ [⟨key, v.truncate 32, asid⟩] }

/-- PQPUSH (R309), in its place in the order. -/
def execPqpush (xk xv : BitVec 5) (s : State) : Out :=
  if !s.ringNow then .next ((s.pump s.act).defer (.pqpush xk xv) 0 0 (s.rx xk) (s.rx xv) 0)
  else .next (s.ringAccess.pqPush s.act (s.rx xk) (s.rx xv))

/-- PQPOP by a core: its value, and the queue after it (R310): any entry whose key is not greater than the eighth smallest (log 3). -/
def State.pqPop (s : State) (core : Nat) : Word × State :=
  let mine := s.pqMine core
  let sorted := sortBy (fun e : PqEntry => e.key.toNat) mine
  let limit := ((sorted.take 8).getLast?).map (fun e : PqEntry => e.key.toNat)
  match limit with
  | none => (BitVec.allOnes 64, s.modCore core fun c => c.setPq true false)
  | some m =>
    let cand := sorted.filter fun e => decide (e.key.toNat ≤ m)
    let r := s.choose cand.length
    match cand[r.1]? with
    | some e => (e.key ++ e.val, r.2.modDie (dieOf core) fun d => { d with pq := d.pq.erase e })
    | none => (BitVec.allOnes 64, r.2)

/-- PQPOP (R310), in its place in the order. -/
def execPqpop (xd : BitVec 5) (s : State) : Out :=
  if !s.ringNow then s.deferX (.pqpop xd) xd
  else
    let r := s.ringAccess.pqPop s.act
    xHeld xd r.1 r.2

end Sys2Proof.Machine
end

