-- ==== Sys2Proof/Machine/Rows.lean ====
section
/-!
DEFINITION. The place in the order of what a core has issued and not carried out (R278, R287, Table 15-5), and the rows of the scratchpad
(R184, R185): VLD, VST, VLDE and VSTE.
-/
namespace Sys2Proof.Machine

/-! ### Operations that waited for their place in the order -/

/-- An operation on a ring or a queue that waited takes its place, and gives its value (R287). -/
def State.settleRing (s : State) (core : Nat) (o : MemOp) : State :=
  let s := (s.modCore core fun c => { c with eng := { c.eng with
    memq := c.eng.memq.filter fun e => e.id != o.id, ilk := c.eng.ilk.filter fun l => l.id != o.id } }).catchUp core
  let give := fun (r : Word × State) => r.2.modCore core fun c => c.putX o.xd r.1
  match o.kind with
    | .later i v w _ => match i with
      | .rfill ring _ _ => s.ringFill core ring v w
      | .rtake ring _ => give (s.ringTake core ring)
      | .pqpush _ _ => s.pqPush core v w
      | .pqpop _ => give (s.pqPop core)
      | _ => s
    | _ => s

/-- Can a ring's or a queue's operation that waits take its place now: every earlier access is performed, and no earlier write to its
register is in flight (R125)? -/
def State.ringFree (s : State) (core : Nat) (o : MemOp) : Bool :=
  s.ringTurn core o.id && (o.xd == 0 || !(s.core core).arch.xInFlight o.xd)

/-- One access of a core takes its place in the order now, if nothing but its way to its home slice holds it back. -/
def State.forceOne (s : State) (core id : Nat) : State :=
  match s.memOp? core id with
  | none => s
  | some o =>
    if o.kind.isRow then s
    else if o.kind.isLater then (if s.ringFree core o then s.settleRing core o else s)
    else s.performIf core (fun s => s.isNext core) id

/-- Every access of a core before operation `id` that nothing but its way to its home slice holds back takes its place in the order now,
in program order: what stands between it and `id` could show that it has none (R278, log 34). -/
def State.force (s : State) (core id : Nat) : State :=
  (((s.core core).eng.memq.map (·.id)).filter fun i => decide (i < id)).foldl (fun (s : State) i => s.forceOne core i) s

/-- The same, where an engine operation of the core that moves bytes could show it (Table 15-5). -/
def State.forceMoving (s : State) (core id : Nat) : State := if (s.core core).eng.moving then s.force core id else s

/-- Is the place in the order come of a row of the scratchpad, that is written or not (Table 15-5)? Where nothing of the core moves bytes,
it goes before what is on its way, as nothing can show that: later accesses are kept behind both. A row that is written waits for what a
release or a ticket waits for. -/
def State.rowTurn (s : State) (core id : Nat) (write : Bool) : Bool :=
  s.fencesMet core id && !((s.core core).eng.memq.any fun o => decide (o.id < id) && o.kind.isRow) &&
    (if (s.core core).eng.moving then s.ringTurn core id else !write || !s.heldUp core id)

/-- What a row meets that is carried out as operation `id` (Table 15-5): later accesses are kept behind what comes before it, and, behind
a row that is written, later engine operations too. -/
def State.rowGate (s : State) (core id : Nat) (write : Bool) : State :=
  s.gateFrom core id (fun o => decide (o.id < id)) fun _ => write

/-- Is a row that waits one that is written? -/
def MemOp.writesRow (o : MemOp) : Bool := o.kind.isRow && !o.kind.isRowRead

/-- The first operation of a core that waits for its place in the order, where that has come: of a ring or a queue, behind every earlier
access, or a row of the scratchpad. -/
def State.laterGo (s : State) (core : Nat) : Option MemOp :=
  ((s.core core).eng.memq.find? fun o => o.kind.isLater).filter fun o =>
    if o.kind.isRow then (s.forceMoving core o.id).rowTurn core o.id o.writesRow else s.ringFree core o

/-- That operation takes its place. -/
def State.settleLater (s : State) (core : Nat) : State :=
  match s.laterGo core with
  | none => s
  | some o =>
    if o.kind.isRow then
      (((s.forceMoving core o.id).rowGate core o.id o.writesRow).modCore core fun c => c.rowMoves o).pump core
    else (s.settleRing core o).pump core

/-! ### Scratchpad rows (R184, R185), in their place in the order (Table 15-5) -/

/-- The scratchpad offset of a row access, where it passes its checks (R184). -/
def State.spadOff (s : State) (ar : BitVec 4) (imm : BitVec 10) (unit align size : Nat) : Option Nat :=
  let e := (s.ra ar + sext64 imm * BitVec.ofNat 64 unit).toNat
  if e % align = 0 && e + size ≤ s.me.spadSize then some e else none

/-- The state in which a row of the acting core finds what comes before it. -/
def State.rowMeets (s : State) (write : Bool) : State :=
  let t := (s.pump s.act).forceMoving s.act s.me.uid
  t.rowGate s.act t.me.uid write

/-- VLD (R184): a padded row is not written. -/
def execVld (v : BitVec 6) (ar : BitVec 4) (imm : BitVec 10) (s : State) : Out :=
  match s.spadOff ar imm 256 256 256 with
  | none => fatalAccess (s.ra ar + sext64 imm * 256) s
  | some e =>
    let s := s.rowMeets false
    let d := s.rv v
    if s.rowTurn s.act s.me.uid false then .next (writeV 4 v d fullMask (BitVec.ofNat 2048 (leNat (s.me.spad.bytes e 256))) 0 s)
    else .next ((s.onMe fun c => c.markBusy 4 (vTile v)).defer (.vld v ar imm) 0 4 (BitVec.ofNat 64 e)
      (BitVec.ofNat 64 (if d.idx < d.tile.rowCount then d.idx else 64)) 0)

/-- VST (R184): a padded row stores zeros. -/
def execVst (v : BitVec 6) (ar : BitVec 4) (imm : BitVec 10) (s : State) : Out :=
  match s.spadOff ar imm 256 256 256 with
  | none => fatalAccess (s.ra ar + sext64 imm * 256) s
  | some e =>
    let s := s.rowMeets true
    if s.rowTurn s.act s.me.uid true then .next (s.onMe fun c => c.spadWrite e (toLe 256 (s.rv v).row.toNat))
    else .next (s.defer (.vst v ar imm) 0 0 (BitVec.ofNat 64 e) 0 (s.rv v).row)

/-- VLDE (R184): all of sl, exactly three cycles later (R126). -/
def execVlde (ar : BitVec 4) (imm : BitVec 10) (s : State) : Out :=
  match s.spadOff ar imm 32 16 32 with
  | none => fatalAccess (s.ra ar + sext64 imm * 32) s
  | some e =>
    let s := s.rowMeets false
    if s.rowTurn s.act s.me.uid false then
      .next (s.onMe fun c => c.post 3 (.sl (BitVec.allOnes 256) (BitVec.ofNat 256 (leNat (s.me.spad.bytes e 32)))))
    else .next (s.defer (.vlde ar imm) 0 3 (BitVec.ofNat 64 e) 0 0)

/-- VSTE (R184): sl as it stands at the issue cycle. -/
def execVste (ar : BitVec 4) (imm : BitVec 10) (s : State) : Out :=
  match s.spadOff ar imm 32 16 32 with
  | none => fatalAccess (s.ra ar + sext64 imm * 32) s
  | some e =>
    let s := s.rowMeets true
    if s.rowTurn s.act s.me.uid true then .next (s.onMe fun c => c.spadWrite e (toLe 32 s.me.rdSl.toNat))
    else .next (s.defer (.vste ar imm) 0 0 (BitVec.ofNat 64 e) 0 (BitVec.ofNat 2048 s.me.rdSl.toNat))

end Sys2Proof.Machine
end

