-- ==== Sys2Proof/Machine/Copy.lean ====
section
/-!
DEFINITION. The copy engine (R251 to R260), with its reservations (R254, R255), the probes (R269 to R273), staging
(R245) and PMSYNC (R267): the COPY group, PROBE and PROBEW, COPY_ACCEPT, COPY_COMPLETE, ENGINE_UNMAPPED_PAGE,
ENGINE_ERROR_DETECTION, PROBE_ACCEPT, PROBE_FAULT, PROBE_COMPLETE, SYNC, CLEAR, SYNC_COMPLETE, STAGING_RESIZE and
STAGING_RESIZE_COMPLETE.
-/
namespace Sys2Proof.Machine

/-! ### Reservations (R254, R255) -/

/-- Sum of two rates, each a numerator and a denominator. -/
def ratAdd (a b : Nat × Nat) : Nat × Nat :=
  let n := a.1 * b.2 + b.1 * a.2
  let d := a.2 * b.2
  let g := Nat.gcd n d
  (n / g, d / g)

/-- Every reservation in force: of the cores' operations and saves, and of the operations of saved cores (R255, R260). -/
def State.reservations (s : State) : List (Resv × Nat × Nat) :=
  let of := fun c : Core => c.eng.eng.flatMap (·.resv) ++ c.eng.moveResv
  s.cores.toList.flatMap of ++ (s.work.kernels.filter fun k => k.st != .placed).flatMap fun k => k.saved.flatMap of

/-- GB/s reserved on a resource. -/
def State.reserved (s : State) (r : Resv) : Nat × Nat :=
  (s.reservations.filter fun e => e.1 == r).foldl (fun a e => ratAdd a e.2) (0, 1)

/-- GB/s that may be reserved on a resource (Table 13-5, R322). -/
def Resv.limit : Resv → Nat
  | .stack _ => 3600 | .staging _ => 1800 | .crossing _ => 3600 | .engine _ => 256 | .port _ => 100

/-- Bytes through each resource. -/
abbrev Use := List (Resv × Nat)

/-- Bytes added to a resource. -/
def Use.add (u : Use) (r : Resv) (n : Nat) : Use :=
  if u.any fun e => e.1 == r then u.map fun e => if e.1 == r then (r, e.2 + n) else e else u ++ [(r, n)]

/-- Bytes of memory moved to or from a die: the stacks of their pages, and the crossing (R255). A page that is not mapped
has no stack. -/
def State.useMem (s : State) (die : Nat) (write cross : Bool) (u : Use) (run : Nat × Nat) : Use :=
  (pagesOf run.1 run.2).foldl (fun u p =>
    let n := Nat.min (run.1 + run.2) ((p + 1) * 65536) - Nat.max run.1 (p * 65536)
    let w := s.wordInForce (p % 2 ^ 23)
    if !s.iaLocal (p * 65536) || !wordV w then u
    else
      let st := stackOf (w % 2 ^ 23 * 65536)
      let u := u.add (.stack st) n
      if cross && st / 8 != die then u.add (.crossing (if write then st / 8 else die)) n else u) u

/-- Bytes of the elements of a last. -/
def Last.elemBytes (l : Last) : Nat := l.width * l.count / 8

/-- Bytes of a last's elements moved by a core to or from a die: memory, or a slice's staging port, and the crossing. DESIGN CHOICE: every
byte of a copy that moves passes the die of the core that issued it (log 23). -/
def State.useLast (s : State) (core die : Nat) (l : Last) (write : Bool) (u : Use) : Use :=
  let cross := fun (d : Nat) (u : Use) => if d != die then u.add (.crossing (if write then d else die)) l.elemBytes else u
  match l.side core with
  | .mem => l.runs.foldl (s.useMem die write true) u
  | .spad _ => cross (dieOf core) u
  | .staging sl => cross (sl / 32) (u.add (.staging sl) l.elemBytes)

/-- rho of R255, for `b` bytes. -/
def State.rate (s : State) (core : Nat) (u : Use) (b : Nat) : Nat :=
  let left := fun (r : Resv) (k : Nat) =>
    let v := s.reserved r
    (r.limit * v.2 - v.1) * b / (v.2 * k)
  u.foldl (fun m e => if e.2 = 0 then m else Nat.min m (left e.1 e.2)) (left (.engine core) b)

/-- The reservations of a copy of `b` bytes at rate `rho` (R255). -/
def resvOf (core rho b : Nat) (u : Use) : List (Resv × Nat × Nat) :=
  (.engine core, rho, 1) :: u.map fun e => (e.1, rho * e.2, b)

/-- Ticks from acceptance to the promise (R255). -/
def copyTicks (u : Use) (b rho : Nat) : Nat :=
  700 + (if u.any fun e => match e.1 with | .crossing _ => decide (e.2 > 0) | _ => false then 62 else 0)
    + (7 * b + 5 * rho - 1) / (5 * rho)

/-! ### Copies at issue (R251, R253) -/

/-- A copy is issued. -/
def copyForm (f : Nat) (src dst : BitVec 6) (kout kin : BitVec 4) (s : State) : Out :=
  .next (s.issueEng (.copy f src dst) .other kout kin)

/-- CPY (R251). -/
def execCpy (dsrc ddst : BitVec 6) (kout kin : BitVec 4) (s : State) : Out := copyForm 0 dsrc ddst kout kin s
/-- CPYCV (R251). -/
def execCpycv (dsrc ddst : BitVec 6) (kout kin : BitVec 4) (s : State) : Out := copyForm 1 dsrc ddst kout kin s
/-- CPYZ (R251). -/
def execCpyz (dsrc ddst : BitVec 6) (kout kin : BitVec 4) (s : State) : Out := copyForm 2 dsrc ddst kout kin s
/-- CPYL2 (R251). -/
def execCpyl2 (dsrc ddst : BitVec 6) (kout kin : BitVec 4) (s : State) : Out := copyForm 3 dsrc ddst kout kin s
/-- CPYPF (R251). -/
def execCpypf (dsrc : BitVec 6) (kout kin : BitVec 4) (s : State) : Out := copyForm 4 dsrc 0 kout kin s
/-- CPYWB (R251). -/
def execCpywb (dsrc : BitVec 6) (kout kin : BitVec 4) (s : State) : Out := copyForm 5 dsrc 0 kout kin s

/-! ### Acceptance (Table 13-4) -/

/-- Last `d` of the context of a core, saved ones included. -/
def State.lastAt (s : State) (n : Nat) (d : BitVec 6) : Last :=
  match s.asidAt n with
  | some a => (s.ctx a).lasts.getD d.toNat 0
  | none => 0

/-- The intermediate address of a last's exponent plane, for a core, saved ones included. -/
def State.planeAt (s : State) (n : Nat) (l : Last) (write : Bool) : Option Nat :=
  (s.asidAt n).bind fun a => (s.ctx a).translate l.scale l.planeBytes (!write) write

/-- Does a last's plane take part: a CPYCV with a block format on that side (R252)? -/
def Last.usesPlane (l : Last) (f : Nat) : Bool := f == 1 && isDbTy l.ty

/-- Does a form accept the SPACE of a side (Table 13-3)? -/
def sideSpaceOk (f : Nat) (sp : Nat) : Bool := if f ≥ 4 then sp == 0 else if f = 3 then decide (sp ≤ 2) else decide (sp ≤ 1)

/-- BAD_LAST for one side (Table 13-4). -/
def State.badSide (s : State) (core f : Nat) (l : Last) (write : Bool) : Bool :=
  l.rank == 0 || !sideSpaceOk f l.space || (l.space == 1 && decide (l.base + l.footprint > (s.core core).spadSize))
    || (l.usesPlane f && l.space != 0 && (s.planeAt core l write).isNone)

/-- STAGING for one side (Table 13-4, R245). -/
def State.badStaging (s : State) (core : Nat) (l : Last) : Bool :=
  l.space == 2 &&
    (let r := s.rod l.slice
     let held := match s.kernelOf core with
       | some k => k.rods.contains l.slice
       | none => false
     !held || !r.sliceUp || decide (l.base + l.footprint > Nat.min r.slice.ways r.slice.waysNew * 524288) ||
       r.slice.disabledIn l.base l.footprint)

/-- Are all of some bytes local? -/
def State.bytesLocal (s : State) (ia n : Nat) : Bool := s.iaLocal ia && s.iaLocal (ia + n - 1)

/-- The spans of one side: its footprint, and its plane where it takes part. -/
def State.spans (s : State) (core f : Nat) (l : Last) (write : Bool) : List (Side × Nat × Nat) :=
  (l.side core, l.start, l.footprint) ::
    (if l.usesPlane f then match s.planeAt core l write with
      | some p => [(.mem, p, l.planeBytes)]
      | none => [] else [])

/-- REMOTE for one side. -/
def State.remoteSide (s : State) (core f : Nat) (l : Last) (write : Bool) : Bool :=
  (s.spans core f l write).any fun e => e.1 == .mem && !s.bytesLocal e.2.1 e.2.2

/-- The first failing check of reasons 2 to 7, or 0 (Table 13-4). -/
def State.copyReason (s : State) (core f : Nat) (a b : Last) : Nat :=
  let two := decide (f < 4)
  if s.badSide core f a false || (two && s.badSide core f b true)
      || (f == 3 && a.space != 2 && b.space != 2) then 2
  else if (two && (a.count != b.count || (f != 1 && a.ty != b.ty))) || decide (a.footprint > 2 ^ 32)
      || (two && decide (b.footprint > 2 ^ 32)) then 3
  else if two && b.ro then 4
  else if s.badStaging core a || (two && s.badStaging core b) then 5
  else if s.remoteSide core f a false || (two && s.remoteSide core f b true) then 6
  else if two && (s.spans core f a false).any (fun x => (s.spans core f b true).any fun y =>
      x.1 == y.1 && runsMeet x.2 y.2) then 7
  else 0

/-- Bytes through the resources, and B (R255). A conversion that Table 2-6 does not have writes no plane (R252). CPYPF and CPYWB move
whole lines between a stack and its own slices, and nothing crosses the die. -/
def State.copyUse (s : State) (core f : Nat) (a b : Last) : Use × Nat :=
  let plane := fun (l : Last) (write : Bool) (u : Use) =>
    if l.usesPlane f then match s.planeAt core l write with
      | some p => s.useMem (dieOf core) write true u (p, l.planeBytes)
      | none => u
    else u
  if f ≥ 4 then
    let ls := linesOf a.runs
    (ls.foldl (fun u l => s.useMem (dieOf core) (f == 5) false u (l * 128, 128)) [], 128 * ls.length)
  else
    let bp := f == 1 && (a.ty == b.ty || cvtPair a.ty b.ty)
    let u := (if bp then plane b true else id) (s.useLast core (dieOf core) b true (plane a false (s.useLast core (dieOf core) a false [])))
    let n := fun l : Last => l.elemBytes + (if l.usesPlane f then l.planeBytes else 0)
    (u, Nat.max (n a) (if bp then n b else b.elemBytes))

/-- Has a store of the core to the lines of a side that form `f` reads, its plane with it, not reached its home slice: an earlier one, or a
later one that keeps a line of the L1 dirty (R243)? A later one that waits for what a release, a FENCE or a ticket waits for, which may be
this operation, is not waited for (log 14). -/
def State.storesPending (s : State) (core op f : Nat) (l : Last) : Bool :=
  (s.core core).eng.memq.any fun e => e.kind.isStore &&
    (decide (e.id < op) || ((s.core core).l1Dirty e.loc && !s.heldUp core (e.id + 1))) &&
    (match e.loc with
      | .dram _ ia _ => (s.spans core f l false).any fun p => p.1 == .mem && decide (p.2.1 / 128 ≤ ia / 128) &&
          decide (ia / 128 ≤ (p.2.1 + p.2.2 - 1) / 128)
      | _ => false)

/-- The lasts and planes of an operation of a core, saved ones included. -/
def State.sidesOf (s : State) (n : Nat) (o : EngOp) : Sides :=
  let of := fun (src dst : BitVec 6) => Sides.mk (s.lastAt n src) (s.lastAt n dst) (s.planeAt n (s.lastAt n src) false)
    (s.planeAt n (s.lastAt n dst) true)
  o.sides.getD (match o.kind with
    | .copy _ src dst => of src dst
    | .send _ _ d _ | .sendr d _ | .recv d _ | .spub d | .scons d => of d d
    | _ => ⟨0, 0, none, none⟩)

/-- The source last of such an operation. -/
def Sides.srcLast (sd : Sides) : Last := sd.src
/-- The destination last. -/
def Sides.dstLast (sd : Sides) : Last := sd.dst

/-- The bytes that a copy reads, and those it writes, as spans of memory with the address of the plane: the
footprint of each last and its plane. Only the copies' are known here (R259). -/
def Sides.copySpans (sd : Sides) (f : Nat) : List (Last × Bool × Option Nat) :=
  let side := fun (l : Last) (plane : Option Nat) (write : Bool) =>
    (if l.space = 0 then [(l, write, none)] else []) ++
    (if l.usesPlane f then match plane with
      | some p => [(l, write, some p)]
      | none => [] else [])
  side sd.srcLast sd.srcPlane false ++ (if f < 4 then side sd.dstLast sd.dstPlane true else [])

/-- Is an access of a core, before operation `op`, a read that is not performed yet? -/
def MemOp.readsBefore (o : MemOp) (op : Nat) : Bool := decide (o.id < op) && !o.performed && (o.kind.isLoad || o.kind.isAtomic)

/-- Has a core an earlier read of bytes that the operation `op` writes, by its spans, that even so cannot take its place yet? The operation
waits for it. -/
def State.readsWait (s : State) (n op : Nat) (sp : List (Last × Bool × Option Nat)) : Bool :=
  let meets := fun (o : MemOp) => match o.loc with
    | .dram _ ia _ | .remote ia => sp.any fun e => e.2.1 && match e.2.2 with
      | none => e.1.runs.any fun r => runsMeet r (ia, o.n)
      | some pl => runsMeet (pl, e.1.planeBytes) (ia, o.n)
    | _ => false
  let ahead := fun (s : State) => (s.core n).eng.memq.any fun o => o.readsBefore op && meets o
  decide (n < 256) && ahead s && ahead (s.force n op)

/-- An operation accepted with a rate: its promise, its reservations, and the tick it completes at, which is free up to
the promise (R255, R256; log 3). -/
def State.acceptEng (s : State) (core op ticks : Nat) (rv : List (Resv × Nat × Nat)) : State :=
  let r := s.choose ticks
  r.2.modCore core fun c => (c.modEng op fun o =>
    { o with accepted := true, acceptTick := s.tick, promise := s.tick + ticks, resv := rv, aux := s.tick + 1 + r.1 }).promise
      op (s.tick + ticks)

/-- COPY_ACCEPT (R253 to R255). -/
def execCopyAccept (core op : Nat) (s : State) : Out :=
  match s.eng? core op with
  | none => .next s
  | some o =>
    match o.kind with
    | .copy f src dst =>
      let a := s.last core src
      let b := s.last core dst
      let refuse := fun n : Nat => Host.Outcome.next (s.modCore core fun c => c.refuse op n)
      if o.accepted || !s.engGo core op || !(s.core core).arch.tokEnded o.kin then .next s
      else if (s.core core).arch.tokState o.kin == .refused then refuse 1
      else if s.storesPending core op f a || s.readsWait core op ((s.sidesOf core o).copySpans f) then .next s
      else
        let why := s.copyReason core f a b
        if why != 0 then refuse why
        else
          let u := s.copyUse core f a b
          let rho := s.rate core u.1 u.2
          let t := copyTicks u.1 u.2 rho
          if rho < 8 || t ≥ 2 ^ 32 then refuse 8
          else .next (s.acceptEng core op t (resvOf core rho u.2 u.1))
    | _ => .next s

/-! ### Completion (R252, R256 to R258) -/

/-- The pages that a last's elements lie on in memory, in the order of their linear index, with the index of the first
element on each. -/
def Last.pages (l : Last) : List (Nat × Nat) :=
  ((List.range (l.ext 1 * l.ext 2 * l.ext 3)).flatMap fun r =>
    let a := l.iaBase + l.bitOff (r * l.ext 0) / 8
    (pagesOf a ((l.width * l.ext 0 + 7) / 8)).map fun p => (p, r * l.ext 0 + (p * 65536 - a) * 8 / l.width)).foldl
    (fun acc e => if acc.any fun x => x.1 == e.1 then acc else acc ++ [e]) []

/-- Does an operation find a page unmapped, among the bytes from `a` on that it reaches there: at any line, where word 0 is being
changed (R267, R273)? -/
def State.pageHole (s : State) (a n page : Nat) (write : Bool) : Bool :=
  let lo := Nat.max a (page * 65536)
  if s.iaLocal lo && s.wordInForce (iaPage lo) != s.mapWord0 (iaPage lo) then
    (linesOf [(lo, Nat.min (a + n) ((page + 1) * 65536) - lo)]).any fun ln => (s.iaLoc (ln * 128) write).isNone
  else (s.iaLoc lo write).isNone

/-- The virtual address of the first unmapped page of one span. -/
def State.spanHole (s : State) (e : Last × Bool × Option Nat) : Option Nat :=
  match e with
  | (l, write, none) => (l.pages.find? fun p => s.pageHole l.iaBase l.footprint p.1 write).map fun p =>
      l.base + (p.1 * 65536 - l.iaBase)
  | (l, write, some pl) => ((pagesOf pl l.planeBytes).find? fun p => s.pageHole pl l.planeBytes p write).map fun p =>
      l.scale + (p * 65536 - pl)

/-- The memory lines of a span. -/
def spanLines : Last × Bool × Option Nat → List Nat
  | (l, _, none) => linesOf l.runs
  | (l, _, some pl) => linesOf [(pl, l.planeBytes)]

/-- Lines accessed in the memory-side caches by an engine (R244, R274, R387): a poisoned line that is read raises a MACHINE_CHECK
(R390). Answers the ticks of the DRAM replays (R386). -/
def State.engAccess (s : State) (n : Nat) (tok : Nat) (lines : List Nat) (write : Bool) : Nat × State :=
  let own : Owner := { dom := s.regs.domain, asid := (s.asidAt n).getD 0 }
  lines.foldl (fun (acc : Nat × State) ln =>
    let s := acc.2
    match s.dramLine ln write with
    | some d =>
      let r := s.l2Access d (ln * 128) (if write then some own else none) (eng := some tok)
      (acc.1 + r.1 / 112 * 112, if !write && r.2.poisoned d then r.2.poisonRead n d (ln * 128) (some tok) else r.2)
    | none => acc) (0, s)

/-- Such lines, where a replay delays nothing more. -/
def State.engLines (s : State) (n : Nat) (tok : Nat) (lines : List Nat) (write : Bool) : State := (s.engAccess n tok lines write).2

/-- Bytes that the engine operation `op` of a core writes to a side: its core's earlier reads of them take their place in the order before
it (Table 15-4, notes 2 and 3). -/
def State.engPut (s : State) (n op : Nat) (sd : Side) (cells : List (Nat × Byte)) : State :=
  let keys := cells.filterMap fun e => (s.iaLoc e.1 true).map Loc.key
  let ahead := sd == .mem && decide (n < 256) && (s.core n).eng.memq.any fun o => o.readsBefore op && keys.any o.touches
  (if ahead then s.force n op else s).putSideCells sd cells

/-- What is streamed from memory past the memory-side caches finds its errors (R389); answers the ticks of the DRAM replays (R386). -/
def State.streamErrors (s : State) (ia len : Nat) : Nat × State :=
  if s.errors.planted.isEmpty then (0, s)
  else (linesOf [(ia, len)]).foldl (fun (acc : Nat × State) ln => match acc.2.dramLine ln false with
    | some d =>
      let r := acc.2.detect d (!acc.2.l2Holds d) (ln * 128)
      (acc.1 + r.1, r.2)
    | none => acc) (0, s)

/-- Memory that a save, a restore or a gate weight load streams past the memory-side caches (R274, R339, R379): each line that no slice
holds moves at its stack. A save's bytes make the lines that are held dirty under the saved context's tag, and clear poison (R387,
R390). -/
def State.streamLines (s : State) (own : Option Owner) (ia len : Nat) : State :=
  (pagesOf ia len).foldl (fun s p =>
    let lo := Nat.max ia (p * 65536)
    let k := (Nat.min (ia + len) ((p + 1) * 65536) - 1) / 128 - lo / 128 + 1
    match s.iaLoc lo own.isSome with
    | some (.dram o _ _) =>
      let first := o / 128
      let hit := fun n : Nat => decide (first ≤ n) && decide (n < first + k)
      let held := (s.rods.toList.flatMap fun r => r.slice.lines.filter fun l => hit l.line).length
      let s := match own with
        | none => s
        | some w =>
          let lost := s.errors.poison ++ s.rods.toList.flatMap fun r : Rod => (r.slice.lines.filter fun l : L2Line => l.poison).map fun l : L2Line => l.line
          let s := (lost.filter hit).foldl State.clearPoison s
          let s := { s with errors := { s.errors with planted := s.errors.planted.filter fun e => !hit e.1 } }
          let soil := fun l : L2Line => if hit l.line then { l with dirty := true, tag := some w } else l
          let taint := fun r : Rod => { r with slice := { r.slice with lines := r.slice.lines.map soil } }
          let s := if held = 0 then s else { s with rods := s.rods.map taint }
          let n := rfield s.errors.errinj 7 45 + 2 ^ 45 - lo / 128 % 2 ^ 45
          if n % 2 ^ 45 < k then s.plant (first + n % 2 ^ 45) (lo + 128 * (n % 2 ^ 45)) (!s.l2Holds (first + n % 2 ^ 45)) else s
      s.countMove first lo s.regs.domain.toNat (k - held)
    | _ => s) s

/-- CPYPF and CPYWB (Table 13-3), over each line of the source footprint. A line is allocated where its home slice is up; the
core's L1 has cleared its dirty lines by acceptance (R243). -/
def State.lineCopy (s : State) (n tok : Nat) (wb : Bool) (a : Last) : State :=
  let lines := linesOf [(a.iaBase, a.footprint)]
  if !wb then s.engLines n tok lines false
  else lines.foldl (fun s ln =>
    match s.dramLine ln false with
    | some d =>
      let sl := homeSlice (d * 128)
      match (s.rod sl).slice.lines.find? fun l => l.line == d with
      | some l => if l.dirty then s.writeBack sl l else s
      | none => s
    | none => s) s

/-- The blocks of a last as values, from codes and exponent pairs (R31). -/
def State.dbVals (s : State) (f : DbTy) (plane : Nat) (codes : List Nat) : List FVal :=
  (codes.zipIdx).map fun e =>
    let p := s.planePair plane (e.2 / 32)
    dbDecode f e.1 p.1 p.2

/-- The destination codes of a moving form, the destination's exponent pairs, if it writes them, and the flags (R252). -/
def State.copyVals (s : State) (n f : Nat) (sd : Sides) : List Nat × Option (List Byte) × Flags :=
  let a := sd.srcLast
  let b := sd.dstLast
  let src := s.lastElems (s.phys n) a 0 a.count
  if f != 1 then (src, none, 0)
  else if a.ty == b.ty then
    (src, if isDbTy a.ty then sd.srcPlane.map fun p => s.sideBytes .mem p a.planeBytes else none, 0)
  else if !cvtPair a.ty b.ty then (src.map fun _ => 0, none, flagNV)
  else match dbOf b.ty, dbOf a.ty with
    | some db, _ =>
      let vals := src.map (elemVal a.ty)
      let bs := (List.range (b.count / 32)).map fun i => quantise db ((vals.drop (32 * i)).take 32)
      (bs.flatMap (·.2.1), some (bs.flatMap fun q => [BitVec.ofNat 8 q.1.1, BitVec.ofNat 8 q.1.2]), flagsAll (bs.map (·.2.2)))
    | none, some da =>
      match fmtOf b.ty, sd.srcPlane with
      | some m, some p =>
        let rs := (s.dbVals da p src).map (m.encode .rne)
        (rs.map (·.1), none, flagsAll (rs.map (·.2)))
      | _, _ => (src.map fun _ => 0, none, 0)
    | none, none =>
      let rs := src.map (cvtElem a.ty b.ty .rne)
      (rs.map (·.1), none, flagsAll (rs.map (·.2)))

/-- The bytes of the moving form `op` of a core are read and written (R252); answers the flags. -/
def State.copyMove (s : State) (n op tok f : Nat) (sd : Sides) : Flags × State :=
  let sp := sd.copySpans f
  let b := sd.dstLast
  let s := sp.foldl (fun s e => if e.2.1 then s else s.engLines n tok (spanLines e) false) s
  let v := s.copyVals n f sd
  let s := sp.foldl (fun s e => if e.2.1 then s.engLines n tok (spanLines e) true else s) s
  let s := s.engPut n op (b.side (s.phys n)) (s.elemsCells (s.phys n) b 0 v.1)
  match v.2.1, sd.dstPlane with
  | some bs, some p => (v.2.2, s.engPut n op .mem (cellsAt p bs))
  | _, _ => (v.2.2, s)

/-- Is a page of an operation's spans being retired, so that the operation waits (R256, R394)? -/
def State.spansRetiring (s : State) (sp : List (Last × Bool × Option Nat)) : Bool := s.linesRetiring (sp.flatMap spanLines)

/-- An engine operation of a core, saved ones included. -/
def State.engAt? (s : State) (n op : Nat) : Option EngOp := (s.coreAt n).eng.eng.find? fun o => o.id == op

/-- The spans of an accepted operation: those of a copy, of a send's source or of a receive's destination, as far as
memory holds them. -/
def State.opSpans (s : State) (n : Nat) (o : EngOp) : List (Last × Bool × Option Nat) :=
  let sd := s.sidesOf n o
  let reads := if sd.srcLast.space = 0 then [(sd.srcLast, false, none)] else []
  let writes := if sd.dstLast.space = 0 then [(sd.dstLast, true, none)] else []
  match o.kind with
  | .copy f _ _ => sd.copySpans f
  | .send _ _ _ _ | .sendr _ _ | .spub _ => reads
  | .recv _ _ =>
    writes ++
      (if isDbTy sd.dstLast.ty && (match o.msg with | some m => m.kind == .quantised | none => false) then match sd.dstPlane with
        | some p => [(sd.dstLast, true, some p)]
        | none => [] else [])
  | .scons _ => writes
  | _ => []

/-- Does an accepted operation wait: for a page of its spans that is being retired (R394), or for earlier reads of what it writes? -/
def State.opWaits (s : State) (n : Nat) (o : EngOp) : Bool :=
  s.spansRetiring (s.opSpans n o) || s.readsWait n o.id (s.opSpans n o)

/-- The virtual address of the first unmapped page that an operation reaches (R259). -/
def State.opHole (s : State) (n : Nat) (o : EngOp) : Option Nat := (s.opSpans n o).findSome? s.spanHole

/-- Staging bytes that an operation wrote in ways that were quarantined under it read zero (R400). -/
def State.dropLost (s : State) (o : EngOp) (l : Last) : State :=
  if l.space ≠ 2 then s
  else o.lost.foldl (fun s e =>
    if e.1 ≠ l.slice then s
    else s.modRod e.1 fun r => { r with slice := { r.slice with staging := r.slice.staging.filter fun b =>
      !(b.1 / 524288 == e.2 && decide (l.base ≤ b.1) && decide (b.1 < l.base + l.footprint)) } }) s

/-- COPY_COMPLETE (R252, R253, R258): its time has come, and every page it reaches is mapped and in place. -/
def execCopyComplete (core op : Nat) (s : State) : Out :=
  match s.engAt? core op with
  | none => .next s
  | some o =>
    match o.kind with
    | .copy f _ _ =>
      let sd := s.sidesOf core o
      if !o.accepted || decide (s.tick < o.aux + o.late) || (s.opHole core o).isSome || s.opWaits core o then .next s
      else
        let tok := o.kout.toNat
        let r := if f ≥ 4 then (0, s.lineCopy core tok (f == 5) sd.srcLast) else s.copyMove core op tok f sd
        let st : BitVec 16 := r.1.zeroExtend 16 <<< 5
        .next ((r.2.dropLost o sd.dstLast).modCoreAt core fun c => c.complete op s.tick st)
    | _ => .next s

/-- ENGINE_UNMAPPED_PAGE (R259, R316): an engine operation reaches an unmapped page, and its context ends; the token never
completes. -/
def execEngineUnmappedPage (core op : Nat) (s : State) : Out :=
  match s.engAt? core op, s.asidAt core with
  | some o, some a =>
    match s.opHole core o with
    | some va =>
      if o.accepted && decide (o.aux + o.late ≤ s.tick) && !(s.ctx a).ending then
        .next (s.endContext a 1 0 0 (if core < 256 then core else 0) (BitVec.ofNat 64 va))
      else .next s
    | none => .next s
  | _, _ => .next s

/-- ENGINE_ERROR_DETECTION (R389, R256): an engine operation reads a line with a planted error. A DRAM replay delays it. -/
def execEngineErrorDetection (core op line : Nat) (s : State) : Out :=
  match s.engAt? core op with
  | none => .next s
  | some o =>
    let reads := (s.opSpans core o).filter fun e => !e.2.1
    match (reads.flatMap spanLines).find? fun ln => s.dramLine ln false == some line with
    | some ln =>
      if !o.accepted then .next s
      else
        let r := s.detect line (!s.l2Holds line) (ln * 128) (some o.kout.toNat)
        .next (r.2.modCoreAt core fun c => c.modEng op fun o => { o with late := o.late + r.1 })
    | none => .next s

/-! ### Probes (R269 to R273) -/

/-- A probe is issued (R269). -/
def probeForm (write : Bool) (d : BitVec 6) (kout kin : BitVec 4) (s : State) : Out :=
  let id := s.nextOp
  let t := s.rdTok kin
  .next ((s.newOp .other kout).onMe fun c => { c with eng := { c.eng with
    probes := c.eng.probes ++ [{ id := id, write := write, d := d, kout := kout, kin := t, cmd := c.eng.probeCmd,
                                 priv := c.latch.priv }],
    probeCmd := c.eng.probeCmd + 1 } })

/-- PROBE (R269). -/
def execProbe (dl : BitVec 6) (kout kin : BitVec 4) (s : State) : Out := probeForm false dl kout kin s
/-- PROBEW (R269). -/
def execProbew (dl : BitVec 6) (kout kin : BitVec 4) (s : State) : Out := probeForm true dl kout kin s

/-- The pages a probe visits: each with whether it is the plane's, and the element it is named by (R269, R271). -/
def State.probePages (s : State) (core : Nat) (p : Probe) : List (Nat × Bool × Nat) :=
  let l := s.last core p.d
  let data := l.pages.map fun e => (e.1, false, e.2)
  let plane := if isDbTy l.ty then match s.planeIa core l p.write with
    | some ia => (pagesOf ia l.planeBytes).map fun q => (q, true, (q * 65536 - ia) / 2 * 32)
    | none => [] else []
  (data ++ plane).foldl (fun acc e => if acc.any fun x => x.1 == e.1 then acc else acc ++ [e]) []

/-- Why a page is missing for a probe: CAUSE of Table 14-6, or 0. The word 0 in force decides, so that no SYNC that the pin refuses
unmaps the page (R272). -/
def State.probeCause (s : State) (page : Nat) (write : Bool) : Nat :=
  if iaHole (page * 65536) then 3
  else if s.iaLocal (page * 65536) then
    let w := s.wordInForce (page % 2 ^ 23)
    if !wordV w then 1 else if write && !wordWr w then 2 else 0
  else if Config.choiceAt 2 0 page % 2 = 0 then 1
  else if write && Config.choiceAt 2 1 page % 2 = 0 then 2
  else 0

/-- A page pinned for the kernel that holds a core (R269). -/
def State.pin (s : State) (core page : Nat) : State :=
  match s.kernelOf core with
  | none => s
  | some k =>
    if k.pins.contains page then s
    else
      let s := s.modKernel k.num fun k => { k with pins := page :: k.pins }
      if s.iaLocal (page * 65536) then
        let w := s.mapWord1 (page % 2 ^ 23)
        s.setMapWord1 (page % 2 ^ 23) (w / 65536 * 65536 + (w % 65536 + 1) % 65536)
      else s

/-- Would a page pass 65,535 pins (R269)? The pins that a page of another package has there are not to be seen from here: whether it would
is free (log 13). -/
def State.pinFull (s : State) (core page : Nat) : Bool :=
  (match s.kernelOf core with
    | some k => !k.pins.contains page
    | none => true) &&
  (if iaHole (page * 65536) then false
    else if s.iaLocal (page * 65536) then s.mapWord1 (page % 2 ^ 23) % 65536 == 65535
    else Config.choiceAt 2 (2 + s.tick) page % 2 = 1)

/-- A pin of a local page that a probe of another package takes, or that goes as the kernel there retires (R268, R269, R272), as a step
from outside names it above 256 (log 1): from bit 0 the package's domain number in 4 bits, whether the pin goes, and the page in 23 bits.
Only a mapped page that can take a pin is pinned. -/
def State.peerPin (s : State) (n : Nat) : State :=
  let page := n / 32 % 2 ^ 23
  let w := s.mapWord1 page
  if n % 16 = s.regs.domain.toNat then s
  else if n / 16 % 2 = 1 then
    if s.pm.peerPins.contains page then
      { s.setMapWord1 page (w / 65536 * 65536 + (w % 65536 - 1)) with pm := { s.pm with peerPins := s.pm.peerPins.erase page } }
    else s
  else if !wordV (s.wordInForce page) || w % 65536 = 65535 then s
  else { s.setMapWord1 page (w + 1) with pm := { s.pm with peerPins := page :: s.pm.peerPins } }

/-- Ticks from acceptance to the promise of a probe over some pages (R270). -/
def State.probeTicks (s : State) (ps : List (Nat × Bool × Nat)) : Nat :=
  ps.foldl (fun t e => t + (if s.iaLocal (e.1 * 65536) then 28 else 420)) 140

/-- The probe at the head changed, or done with. -/
def Core.modProbe (c : Core) (f : Probe → Option Probe) : Core := { c with eng := { c.eng with
  probes := (c.eng.probe.bind f).toList ++ c.eng.probes.tail } }

/-- The tick of the last step of a probe's walk, and a free tick from now on at which it reaches its next page: no later than 140 ticks
and the costs of the pages of this walk after its start (R270). -/
def Probe.step (p : Probe) (s : State) (ps : List (Nat × Bool × Nat)) : Probe × State :=
  let r := s.choose (p.since + s.probeTicks ((ps.take p.pos).drop p.first) - s.tick + 1)
  ({ p with nextTick := s.tick + r.1 }, r.2)

/-- Can the probe at the head be accepted, or walk on: one that has faulted does so once its handler has returned (R270, R272)? -/
def State.probeGo (s : State) (core : Nat) (p : Probe) : Bool :=
  let c := s.core core
  !p.accepted && s.engGo core p.id && c.arch.tokEnded p.kin &&
    !(p.faulted && (c.arch.priv || c.seq.trapSeq.isSome || c.seq.pendTraps.any (·.1 == 4)))

/-- PROBE_ACCEPT (R269, R270): a new probe, or one that walks on after a fault's handler or a restore. The walk reaches each page at a
free tick within its bound (log 3). -/
def execProbeAccept (core : Nat) (s : State) : Out :=
  match (s.core core).eng.probe with
  | none => .next s
  | some p =>
    let c := s.core core
    let l := s.last core p.d
    let refuse := fun n : Nat => Host.Outcome.next (s.modCore core fun c => (c.refuse p.id n).modProbe fun _ => none)
    if !s.probeGo core p then .next s
    else
      let ps := s.probePages core p
      let go : Out :=
        let r := { p with accepted := true, begun := true, faulted := false, since := s.tick, first := p.pos : Probe }.step s ps
        .next (r.2.modCore core fun c => (c.promise p.id (s.tick + s.probeTicks (ps.drop p.pos))).modProbe fun _ => some r.1)
      if p.begun then go
      else if c.arch.tokState p.kin == .refused then refuse 1
      else if l.rank = 0 || l.space = 3 then refuse 2
      else if p.write && l.ro then refuse 4
      else if l.space ≠ 0 then
        .next (s.modCore core fun c => ((c.promise p.id s.tick).complete p.id s.tick 0).modProbe fun _ => none)
      else if ps.any fun e => s.pinFull core e.1 then refuse 9
      else go

/-- The index of the page that a probe's walk reaches next, where that page is missing. -/
def State.probeMiss (s : State) (core : Nat) (p : Probe) : Option Nat :=
  (s.probePages core p)[p.pos]?.bind fun e => if s.probeCause e.1 p.write != 0 then some p.pos else none

/-- Has a probe's walk reached its next page? -/
def Probe.ripe (p : Probe) (s : State) : Bool := p.accepted && decide (p.nextTick ≤ s.tick)

/-- Does the walk of a core's probe go on: a pre-emption has not stopped it (R379)? -/
def Core.walks (c : Core) : Bool := match c.seq.pre with
  | .running | .requested _ => true
  | _ => false

/-- The probes of the program held aside while a handler runs. -/
def Core.setAside (c : Core) : Core := { c with eng := { c.eng with
  aside := c.eng.aside ++ c.eng.probes.filter (!·.priv), probes := c.eng.probes.filter (·.priv) } }

/-- PROBE_FAULT (R270, R271, R374): the walk has reached a missing page; the promise is withdrawn, the record is written
and the class is pending; the fault of a probe that was issued in privileged mode ends the context. -/
def execProbeFault (core : Nat) (s : State) : Out :=
  match (s.core core).eng.probe with
  | none => .next s
  | some p =>
    match if p.ripe s && (s.core core).walks then s.probeMiss core p else none with
    | none => .next s
    | some i =>
      let e := (s.probePages core p).getD i (0, false, 0)
      let l := s.last core p.d
      let j := e.2.2
      let j1 := j / l.ext 0
      let j2 := j1 / l.ext 1
      let info := p.cmd.toNat * 2 ^ 48 + p.d.toNat * 2 ^ 34 + (if p.write then 2 ^ 33 else 0) + (if e.2.1 then 2 ^ 32 else 0)
        + p.kout.toNat * 16 + s.probeCause e.1 p.write
      let coord := j2 / l.ext 2 * 2 ^ 48 + j2 % l.ext 2 * 2 ^ 32 + j1 % l.ext 1 * 65536 + j % l.ext 0
      let s' := s.modCore core fun c =>
        let c := c.modProbe fun p => some { p with accepted := false, faulted := true }
        let c := c.modOp p.id fun o => { o with st := .unpromised, promise := none }
        c.modArch fun a => { a with ctl := { a.ctl with
          pfinfo := BitVec.ofNat 64 info, pfcoord := BitVec.ofNat 64 coord,
          pfrem := BitVec.ofNat 64 (l.count - j), pfia := BitVec.ofNat 64 (e.1 % 2 ^ 36 * 65536) } }
      let fatal := match s.asidOf core with
        | some a => s'.endContext a 1 4 0 core 0x8000000000000000#64
        | none => s'
      if p.priv then .next fatal
      else .next ((if (s.core core).arch.priv then s'.modCore core Core.setAside else s').pendTrap core 4 0)

/-- PROBE_COMPLETE (R269; of a peer's core, R268): a page that the walk has reached is pinned; after the last one, the token completes. -/
def execProbeComplete (core : Nat) (s : State) : Out :=
  if core ≥ 256 then .next (s.peerPin (core - 256))
  else match (s.core core).eng.probe with
  | none => .next s
  | some p =>
    if !p.ripe s || !(s.core core).walks || (s.probeMiss core p).isSome then .next s
    else
      let ps := s.probePages core p
      let s' := match ps[p.pos]? with
        | some e => s.pin core e.1
        | none => s
      if p.pos + 1 < ps.length then
        let r := { p with pos := p.pos + 1 : Probe }.step s' ps
        .next (r.2.modCore core fun c => c.modProbe fun _ => some r.1)
      else .next (s'.modCore core fun c => (c.complete p.id s.tick 0).modProbe fun _ => none)

/-- The pins of a kernel are released (R272). -/
def State.unpin (s : State) (k : Kernel) : State :=
  (k.pins.foldl (fun s page =>
    if s.iaLocal (page * 65536) then
      let w := s.mapWord1 (page % 2 ^ 23)
      s.setMapWord1 (page % 2 ^ 23) (w / 65536 * 65536 + (w % 65536 - 1))
    else s) s).modKernel k.num fun k => { k with pins := [] }

/-! ### PMSYNC (R267) -/

/-- SYNC (R267): refused while the page is pinned; else in progress for a time the spec does not give (log 3). It starts
only when no command is in progress. -/
def execSync (page : Nat) (s : State) : Out :=
  let others := s.pm.kept.filter fun e => e.1 != page
  if s.pm.busy then .next s
  else if s.mapWord1 page % 65536 ≠ 0 then
    .next { s with pm := { s.pm with refused := true, op := 1, page := page, kept := (page, s.mapWord0 page) :: others } }
  else
    let s := { s with pm := { s.pm with kept := others } }
    let r := s.choose 4096
    .next { r.2 with pm := { r.2.pm with busy := true, refused := false, op := 1, page := page, till := s.tick + 1 + r.1 } }

/-- CLEAR (R267). -/
def execClear (page : Nat) (s : State) : Out :=
  if s.pm.busy then .next s
  else
    let s := s.setMapWord1 page (s.mapWord1 page % 65536)
    .next { s with pm := { s.pm with refused := false, op := 2, page := page } }

/-- The lines of the slices that `p` picks are written back and invalidated. -/
def State.dropLines (s : State) (p : L2Line → Bool) : State :=
  (List.range 64).foldl (fun s sl =>
    let s := ((s.rod sl).slice.lines.filter fun l => p l && l.dirty).foldl (fun s l => s.writeBack sl l) s
    s.modRod sl fun r => { r with slice := { r.slice with lines := r.slice.lines.filter fun l => !p l } }) s

/-- A command of PMSYNC starts (R267). -/
def State.pmsyncStart (s : State) (v : BitVec 64) : Out :=
  let page := rfield v 0 23
  match rfield v 60 2 with
  | 1 => execSync page s
  | 2 => execClear page s
  | _ => .next s

/-- A write of PMSYNC (R267): one that meets the command of another write of its own bundle waits for it. -/
def State.pmsyncWrite (s : State) (v : BitVec 64) : Out :=
  if s.pm.busy then .next { s with pm := { s.pm with queue := s.pm.queue ++ [(s.act, v)] } } else s.pmsyncStart v

/-- The commands of PMSYNC that wait start one at a time (R267). -/
def State.pmsyncNext : List (Nat × BitVec 64) → State → Out
  | [], s => .next s
  | e :: es, s =>
    if s.pm.busy then .next { s with pm := { s.pm with queue := e :: es } }
    else (s.pmsyncStart e.2).andThen (State.pmsyncNext es)

/-- The page of the command in progress, as the L1s number it. -/
def State.syncPage (s : State) : Nat := s.regs.domain.toNat * 2 ^ 32 + s.pm.page

/-- Does a SYNC end now: its time has come, and no L1 holds a dirty line of the page (R243)? -/
def State.syncEnds (s : State) : Bool :=
  s.pm.busy && decide (s.pm.till ≤ s.tick) && !s.cores.any fun c => c.l1.any fun g => g.blk / 128 == s.syncPage && g.dirty != 0

/-- The command in progress ends, and its page's word 0 is loaded, or is kept as it was (R267). -/
def State.endSync (s : State) (load : Bool) : State :=
  let p := s.pm
  let new := s.mapWord0 p.page
  let others := p.inForce.filter fun e => e.1 != p.page
  let p := { p with busy := false, queue := [] }
  { s with pm := if load then { p with inForce := (p.page, BitVec.ofNat 32 new) :: others }
      else { p with refused := true, kept := (p.page, new) :: p.kept.filter fun e => e.1 != p.page } }

/-- SYNC_COMPLETE (R267): every cached line of the page, by whichever word 0 it was fetched, and every line of the old and the new frame is
written back and invalidated, and word 0 is read and loaded (R274); where a walk has pinned the page meanwhile, the SYNC is refused (R273).
The next command that waits starts. -/
def execSyncComplete (s : State) : Out :=
  if !s.syncEnds then .next s
  else
    let page := s.pm.page
    let frames := ([s.wordInForce page, s.mapWord0 page].filter wordV).map (· % 2 ^ 23)
    let ia := s.syncPage
    let s := s.dropLines fun l => iaPage l.ia == page || frames.contains (l.line / 512)
    let s := { s with cores := s.cores.map fun c : Core => c.l1DropPage ia }
    let s := s.partLines (s.regs.domain.toNat * 2 ^ 48 + s.mapEntry page) 4 none
    State.pmsyncNext s.pm.queue (s.endSync (s.mapWord1 page % 65536 == 0))

/-! ### Staging (R244, R245) -/

/-- STAGING_RESIZE: a write of STGCFG.WAYS, which acts from the next cycle of the rod on (R245). -/
def execStagingResize (rod ways : Nat) (s : State) : Out :=
  .next (s.modRod rod fun q => { q with slice := { q.slice with waysNext := some (ways % 32) } })

/-- A write of WAYS acts at an edge of the rod's clock: BUSY is set, and the change takes a time the spec does not give (log 3). DESIGN
CHOICE: a second write while BUSY is 1 replaces the first, and the share before the first stays the old one until it ends (log 14). -/
def State.beginResize (s : State) (rod : Nat) : State :=
  match (s.rod rod).slice.waysNext with
  | none => s
  | some w =>
    let r := s.choose 1024
    r.2.modRod rod fun q => { q with slice := { q.slice with
      waysCfg := w, waysNext := none, waysNew := Nat.min w 16, busy := true, till := s.tick + 1 + r.1 } }

/-- Does an accepted copy touch a staging way from `lo` on? -/
def State.stagingInUse (s : State) (rod lo : Nat) : Bool :=
  (List.range 256).any fun c => (s.core c).eng.eng.any fun o => o.accepted &&
    match o.kind with
    | .copy f src dst => [s.last c src, s.last c dst].zipIdx.any fun e =>
        (e.2 = 0 || f < 4) && e.1.space == 2 && e.1.slice == rod && decide (e.1.base + e.1.footprint > lo * 524288)
    | _ => false

/-- The lines of some ways are written back and leave a slice. -/
def State.dropWays (s : State) (rod : Nat) (p : Nat → Bool) : State :=
  let s := ((s.rod rod).slice.lines.filter fun l => p l.way && l.dirty).foldl (fun s l => s.writeBack rod l) s
  s.modRod rod fun r => { r with slice := { r.slice with lines := r.slice.lines.filter fun l => !p l.way } }

/-- STAGING_RESIZE_COMPLETE (R245). -/
def execStagingResizeComplete (rod : Nat) (s : State) : Out :=
  let sl := (s.rod rod).slice
  if !sl.busy || decide (s.tick < sl.till) || (decide (sl.waysNew < sl.ways) && s.stagingInUse rod sl.waysNew) then .next s
  else
    let s := s.dropWays rod fun w => decide (w < sl.waysNew)
    let keep := Nat.min sl.ways sl.waysNew * 524288
    .next (s.modRod rod fun r => { r with slice := { r.slice with
      ways := sl.waysNew, busy := false, staging := r.slice.staging.filter fun b => decide (b.1 < keep) } })

/-- WAYS returns to 0 when a rod is placed or released (R245). -/
def State.clearStaging (s : State) (rod : Nat) : State :=
  s.modRod rod fun r => { r with slice := { r.slice with waysCfg := 0, waysNext := none, ways := 0, waysNew := 0, busy := false, staging := [] } }

end Sys2Proof.Machine
end

