-- ==== Sys2Proof/Machine/Func.lean ====
section
/-!
DEFINITION. The special functions (R186 to R189) and the gate group (R336, R337, R343 to R346). A function result that the
spec leaves within a bound is the free value `Config.sfu` where it lies within the bound, and the rounded exact value
elsewhere (log 12).
-/
namespace Sys2Proof.Machine

/-! ### Brackets: magnitudes as counts of 2^-512, from below -/

/-- One in the bracket scale. -/
def bOne : Nat := 2 ^ 512
/-- Product of two bracket values. -/
def bMul (a b : Nat) : Nat := a * b / bOne
/-- `ln 2`, as the sum of `1 / (n 2^n)`. -/
def bLn2 : Nat := (List.range 520).foldl (fun s i => s + bOne / ((i + 1) * 2 ^ (i + 1))) 0
/-- `e^y` for `0 ≤ y < 1`, by its series. -/
def bExpGo (y : Nat) : Nat → Nat → Nat → Nat
  | 0, _, _ => 0
  | k + 1, i, t => t + bExpGo y k (i + 1) (bMul t y / (i + 1))
/-- `e^y` for `0 ≤ y < 1`. -/
def bExp (y : Nat) : Nat := bExpGo y 140 0 bOne
/-- `e^-y` for `y ≥ 0`: `2^-q e^-r` with `y = q ln 2 + r`. -/
def bExpNeg (y : Nat) : Nat :=
  let q := y / bLn2
  let r := y % bLn2
  bOne * bOne / (bExp r) / 2 ^ q
/-- Binary digits of `log2 m`, for a bracket value `m` in [1, 2), with `k` digits to come. -/
def bLog2Go : Nat → Nat → Nat → Nat
  | 0, _, acc => acc
  | k + 1, m, acc =>
    let m2 := bMul m m
    if m2 ≥ 2 * bOne then bLog2Go k (m2 / 2) (2 * acc + 1) else bLog2Go k m2 (2 * acc)
/-- `log2 m` for `m` in [1, 2), to 200 digits. -/
def bLog2 (m : Nat) : Nat := bLog2Go 200 m 0 * 2 ^ 312

/-- The magnitude of a finite value as a bracket value. -/
def bOf (n : Nat) : Nat := n * 2 ^ 363

/-- FP32 spacing at a bracket value. -/
def bUlp (v : Nat) : Nat := 2 ^ (Nat.max (Nat.log2 v) 386 - 23)

/-- The result of a function whose exact magnitude is bracketed by `lo` and `hi`: the free value if it is finite, has the
sign, and lies within `tol` of the bracket; else the rounded value. The flags are those of a rounding of the exact value
(R29), with NX as `exact` says of the result. -/
def bounded (fn : Nat) (x : BitVec 32) (neg : Bool) (lo hi tol : Nat) (exact : Nat → Bool) : Nat × Flags :=
  let d := FFmt.fp32.round .rne neg lo bOne
  let c := (Config.sfu fn x).toNat
  let ok := match FFmt.fp32.decode c with
    | .fin s n => (s == neg || n == 0) && decide (lo ≤ bOf n + tol) && decide (bOf n ≤ hi + tol)
    | _ => false
  let r := if ok then c else d.1
  let n := match FFmt.fp32.decode r with
    | .fin _ n => n
    | _ => 0
  if exact n then (r, 0) else (r, flagNX ||| (d.2 &&& flagUF))

/-- `±1`, `±∞` and the other constants of Table 9-7. -/
def fpOne : Nat := 0x3F800000
/-- FP32 zero of a sign. -/
def fpZero (neg : Bool) : Nat := if neg then 0x80000000 else 0
/-- FP32 infinity of a sign. -/
def fpInf (neg : Bool) : Nat := (if neg then 0x80000000 else 0) + 0x7F800000
/-- Canonical NaN. -/
def fpNan : Nat := 0x7FC00000

/-- A value that is never exact. -/
def never (_ : Nat) : Bool := false

/-- FRCP (R188). -/
def fnRcp (x : BitVec 32) : Nat × Flags :=
  match FFmt.fp32.decode x.toNat with
  | .nan => (fpNan, 0)
  | .inf s => (fpZero s, 0)
  | .fin s n =>
    if n = 0 then (fpInf s, flagDZ)
    else if n ≤ 2 ^ 21 then (fpInf s, flagOF ||| flagNX)
    else if n > 2 ^ 275 then (fpZero s, flagUF ||| flagNX)
    else if n = 2 ^ 275 then (fpZero s + 0x00800000, 0)
    else
      let v := 2 ^ 661 / n
      bounded 0 x s v (v + 1) (bUlp v) fun r => r * n == 2 ^ 298

/-- FRSQ (Table 9-7). -/
def fnRsq (x : BitVec 32) : Nat × Flags :=
  match FFmt.fp32.decode x.toNat with
  | .nan => (fpNan, 0)
  | .inf s => if s then (fpNan, flagNV) else (0, 0)
  | .fin s n =>
    if n = 0 then (fpInf s, flagDZ)
    else if s then (fpNan, flagNV)
    else
      let v := isqrtGo (2 ^ 1173 / n) 600 0   -- sqrt(2^149 / n) in units of 2^-512
      bounded 1 x false v (v + 1) (bUlp v) fun r => r * r * n == 2 ^ 447

/-- FSQRT: correctly rounded. -/
def fnSqrt (x : BitVec 32) : Nat × Flags :=
  match FFmt.fp32.decode x.toNat with
  | .nan => (fpNan, 0)
  | .inf s => if s then (fpNan, flagNV) else (fpInf false, 0)
  | .fin s n => if n = 0 then (fpZero s, 0) else if s then (fpNan, flagNV) else sqrtRound .fp32 n

/-- FEXP2: exact for integral x. -/
def fnExp2 (x : BitVec 32) : Nat × Flags :=
  match FFmt.fp32.decode x.toNat with
  | .nan => (fpNan, 0)
  | .inf s => if s then (0, 0) else (fpInf false, 0)
  | .fin s n =>
    if n = 0 then (fpOne, 0)
    else if !s && n ≥ 128 * 2 ^ 149 then (fpInf false, flagOF ||| flagNX)
    else
      let k := n / 2 ^ 149
      let f := n % 2 ^ 149
      if f = 0 then
        if s then FFmt.fp32.round .rne false 1 (2 ^ Nat.min k 400) else FFmt.fp32.round .rne false (2 ^ k) 1
      else
        let e := bExp (bMul (bOf f) bLn2)
        let v := if s then bOne * bOne / e / 2 ^ Nat.min k 400 else e * 2 ^ k
        bounded 3 x false v (v + 2 ^ 32 * 2 ^ (if s then 0 else k)) (bUlp v) never

/-- FLOG2: exact for powers of two. -/
def fnLog2 (x : BitVec 32) : Nat × Flags :=
  match FFmt.fp32.decode x.toNat with
  | .nan => (fpNan, 0)
  | .inf s => if s then (fpNan, flagNV) else (fpInf false, 0)
  | .fin s n =>
    if n = 0 then (fpInf true, flagDZ)
    else if s then (fpNan, flagNV)
    else
      let k := Nat.log2 n
      if n = 2 ^ k then FFmt.fp32.round .rne (decide (k < 149)) (if k < 149 then 149 - k else k - 149) 1
      else
        let m := bLog2 (n * bOne / 2 ^ k)
        if k < 149 then
          let v := (149 - k) * bOne - m
          bounded 4 x true (v - 2 ^ 313) v (bUlp v) never
        else
          let v := (k - 149) * bOne + m
          bounded 4 x false v (v + 2 ^ 313) (bUlp v) never

/-- FEXPT (R189). -/
def fnExpt (x : BitVec 32) : Nat × Flags :=
  match FFmt.fp32.decode x.toNat with
  | .nan => (fpNan, 0)
  | .inf s => if s then (0, flagUF ||| flagNX) else (fpNan, flagNV)
  | .fin s n =>
    if n = 0 then (fpOne, 0)
    else if !s then (fpNan, flagNV)
    else if n > 64 * 2 ^ 149 then (0, flagUF ||| flagNX)
    else
      let v := bExpNeg (bOf n)
      bounded 5 x false v (v + 2 ^ 32) (v / 4096) never

/-- FTANH: the exact magnitude lies below 1, where the spacing is that of values below 1. -/
def fnTanh (x : BitVec 32) : Nat × Flags :=
  match FFmt.fp32.decode x.toNat with
  | .nan => (fpNan, 0)
  | .inf s => (fpZero s + fpOne, 0)
  | .fin s n =>
    if n = 0 then (fpZero s, 0)
    else
      let t := if n > 200 * 2 ^ 149 then 0 else bExpNeg (2 * bOf n)
      let v := (bOne - t) * bOne / (bOne + t)
      bounded 6 x s (v - 2 ^ 32) (Nat.min (v + 2 ^ 32) (bOne - 1)) (2 * bUlp (Nat.min v (bOne - 1))) never

/-- FSIGM: the exact value lies above 0 and below 1. -/
def fnSigm (x : BitVec 32) : Nat × Flags :=
  match FFmt.fp32.decode x.toNat with
  | .nan => (fpNan, 0)
  | .inf s => (if s then 0 else fpOne, 0)
  | .fin s n =>
    if n = 0 then (0x3F000000, 0)
    else
      let t := if n > 300 * 2 ^ 149 then 0 else bExpNeg (bOf n)
      let v := if s then t * bOne / (bOne + t) else bOne * bOne / (bOne + t)
      bounded 7 x false (Nat.max 1 (v - 2 ^ 32)) (Nat.min (v + 2 ^ 32) (bOne - 1)) (2 * bUlp (Nat.min v (bOne - 1))) never

/-! ### The FN group (R186) -/

/-- The unit is busy for `n` cycles (R186, R343). -/
def sfuBusy (n : Nat) (s : State) : State := s.onMe fun c => { c with eng := { c.eng with sfuFree := c.cyc + n } }

/-- An FN slot: every element of an FP32 row. -/
def fnForm (f : BitVec 32 → Nat × Flags) (vd va : BitVec 6) (s : State) : Out :=
  let a := s.rv va
  let d := s.rv vd
  let s := sfuBusy 4 s
  if a.tile.isTy .fp32 && d.tile.isTy .fp32 then
    let r := mapRow .fp32 fun i => f (BitVec.ofNat 32 (rowElem .fp32 a.row i))
    .next (writeV 16 vd d fullMask r.1 r.2 s)
  else .next (mismatch 16 vd d fullMask s)

/-- FRCP (R188). -/
def execFrcp (vd va : BitVec 6) (s : State) : Out := fnForm fnRcp vd va s
/-- FRSQ (Table 9-7). -/
def execFrsq (vd va : BitVec 6) (s : State) : Out := fnForm fnRsq vd va s
/-- FSQRT (Table 9-7). -/
def execFsqrt (vd va : BitVec 6) (s : State) : Out := fnForm fnSqrt vd va s
/-- FEXP2 (Table 9-7). -/
def execFexp2 (vd va : BitVec 6) (s : State) : Out := fnForm fnExp2 vd va s
/-- FLOG2 (Table 9-7). -/
def execFlog2 (vd va : BitVec 6) (s : State) : Out := fnForm fnLog2 vd va s
/-- FEXPT (R189). -/
def execFexpt (vd va : BitVec 6) (s : State) : Out := fnForm fnExpt vd va s
/-- FTANH (Table 9-7). -/
def execFtanh (vd va : BitVec 6) (s : State) : Out := fnForm fnTanh vd va s
/-- FSIGM (Table 9-7). -/
def execFsigm (vd va : BitVec 6) (s : State) : Out := fnForm fnSigm vd va s

/-! ### Ranking and the gate group -/

/-- Does the candidate at `i` rank above the one at `j` (R337)? -/
def rankAbove (a : FVal) (i : Nat) (b : FVal) (j : Nat) : Bool :=
  if a.isNan then b.isNan && decide (i < j)
  else b.isNan || b.lt a || (!a.lt b && decide (i < j))

/-- Insertion by rank. -/
def rankInsert (x : FVal × Nat) : List (FVal × Nat) → List (FVal × Nat)
  | [] => [x]
  | y :: ys => if rankAbove x.1 x.2 y.1 y.2 then x :: y :: ys else y :: rankInsert x ys

/-- The indices of the top `k` candidates, in ranking order (R337). -/
def topK (k : Nat) (vals : List FVal) : List Nat :=
  (vals.zipIdx.foldl (fun best x => (rankInsert x best).take k) []).map (·.2)

/-- The types of a routing row's tile (Table 18-3). -/
def Tile.isRoute (t : Tile) : Bool := t.isTy .int32 || t.isTy .fp32

/-- GTOPK (R344). -/
def execGtopk (vd va : BitVec 6) (km1 : BitVec 3) (s : State) : Out :=
  let a := s.rv va
  let d := s.rv vd
  let s := sfuBusy 8 s
  if a.tile.isTy .bf16 && d.tile.isRoute then
    let w := topK (km1.toNat + 1) ((List.range 128).map fun i => FFmt.bf16.decode (rowElem .bf16 a.row i))
    let id := (List.range 8).map fun j => match w[j]? with
      | some i => i
      | none => 0xFFFFFFFF
    let val := (List.range 8).map fun j => match w[j]? with
      | some i => (cvtElem .bf16 .fp32 .rne (rowElem .bf16 a.row i)).1
      | none => 0
    .next (writeV 16 vd d fullMask (packElems 32 (id ++ val ++ List.replicate 48 0)) 0 s)
  else .next (mismatch 16 vd d fullMask s)

/-- The softmax weights of GSMAX over valid entries with their indices (R345); with no valid entry it stops, and raises
nothing. -/
def softmax (v : List (Nat × Nat)) : List (Nat × Nat) × Flags :=
  if v.isEmpty then ([], 0) else
  let vals := v.map fun e => (e.1, FFmt.fp32.decode e.2)
  if vals.any fun e => e.2.isNan then (v.map fun e => (e.1, fpNan), 0)
  else
    let m := vals.foldl (fun m e => if m.lt e.2 then e.2 else m) (.inf true)
    if m.isInf then (v.map fun e => (e.1, fpNan), flagNV)
    else
      let es := vals.map fun e =>
        let d := fadd .fp32 e.2 m.flip
        let x := fnExpt (BitVec.ofNat 32 d.1)
        (e.1, x.1, d.2 ||| x.2)
      let sum := match es with
        | [] => (0, 0)
        | e :: rest => rest.foldl (fun (t : Nat × Flags) (x : Nat × Nat × Flags) =>
            let r := fadd .fp32 (FFmt.fp32.decode t.1) (FFmt.fp32.decode x.2.1)
            (r.1, t.2 ||| r.2)) (e.2.1, 0)
      let cnt := fun b => match FFmt.fp32.decode b with
        | .fin _ n => n
        | _ => 0
      let ws := es.map fun e =>
        let q := FFmt.fp32.round .rne false (cnt e.2.1) (cnt sum.1)
        (e.1, q.1, q.2)
      (ws.map fun w => (w.1, w.2.1), flagsAll (es.map fun e => e.2.2) ||| sum.2 ||| flagsAll (ws.map fun w => w.2.2))

/-- GSMAX (R345). -/
def execGsmax (vd va : BitVec 6) (km1 : BitVec 3) (s : State) : Out :=
  let a := s.rv va
  let d := s.rv vd
  let s := sfuBusy 4 s
  if a.tile.isRoute && d.tile.isRoute then
    let el := fun i => rowElem .fp32 a.row i
    let v := ((List.range (km1.toNat + 1)).filter fun j => el j < 2 ^ 31).map fun j => (j, el (8 + j))
    let w := softmax v
    let es := (List.range 64).map fun i =>
      if 8 ≤ i && i < 16 then ((w.1.find? fun e => e.1 == i - 8).map (·.2)).getD 0 else el i
    .next (writeV 16 vd d fullMask (packElems 32 es) w.2 s)
  else .next (mismatch 16 vd d fullMask s)

/-- A row as GHIST reads it: the rows of earlier GHISTs in flight are seen (R346). -/
def Core.rdHist (c : Core) (n slot : Nat) (v : BitVec 6) : VOp :=
  let i := (c.rdC (vCur v)).toNat
  let t := c.latch.pend.foldl
    (fun w e => if e.hist || Config.seesEarly n c.cyc slot e.uid (i + 1) then e.val.onTile (vTile v) w else w)
    (c.latch.tiles.getD (vTile v).toNat {})
  ⟨t, i, if i < t.rowCount then t.rows.getD i 0 else 0⟩

/-- GHIST (R346). -/
def execGhist (vd va : BitVec 6) (s : State) : Out :=
  let a := s.rv va
  let d := s.me.rdHist s.act s.slot vd
  let s := sfuBusy 4 s
  if a.tile.isRoute && d.tile.isTy .int16 then
    let r := (List.range 8).foldl (fun (w : (Nat → Nat) × Row × Flags) j =>
      let g := rowElem .int32 a.row j
      if g ≥ 2 ^ 31 then w
      else
        let e := g % 256
        if e ≥ 128 then (w.1, w.2.1, w.2.2 ||| flagNV)
        else
          let q := satInt .int16 (intVal .int16 (w.1 e) + 1)
          (fun i => if i = e then q.1 else w.1 i, w.2.1 ||| elemMask 16 e 1, w.2.2 ||| q.2))
      (rowElem .int16 d.row, 0, 0)
    .next (writeV 16 vd d r.2.1 (packElems 16 ((List.range 128).map r.1)) r.2.2 s true)
  else .next (mismatch 16 vd d fullMask s true)

end Sys2Proof.Machine
end

