-- ==== Sys2Proof/Machine/Gate.lean ====
section
/-!
DEFINITION. The gate units' registers and weight banks (R338, R339): GATECFG_WRITE, GATE_LOAD and GATE_LOAD_COMPLETE.
-/
namespace Sys2Proof.Machine

/-- ERR of GATELOAD is set. -/
def Die.gateErr (d : Die) : Die := { d with gateload := d.gateload ||| 0x4000000000000000#64 }

/-- GATECFG takes a value at a tick (R348). -/
def Die.setGate (d : Die) (tick : Nat) (v : BitVec 64) : Die :=
  { d with gatecfg := v, gatePrev := if d.gateAt == some tick then d.gatePrev else d.gatecfg, gateAt := some tick }

/-- The configuration of a SEND.g that is accepted at a tick: the one before a write of that tick (R348). -/
def Die.gateFor (d : Die) (tick : Nat) : BitVec 64 := if d.gateAt == some tick then d.gatePrev else d.gatecfg

/-- GATECFG_WRITE (R338, R339): a write of BANK that names a bank that is loading leaves BANK and sets ERR. -/
def execGatecfgWrite (die : Nat) (v : BitVec 64) (s : State) : Out :=
  .next (s.modDie die fun d =>
    let v := v &&& 0xFF807FFFC3#64
    let bank : BitVec 1 := field v 1 1
    let loading := match d.load with
      | some l => l.bank == bank
      | none => false
    if loading then (d.setGate s.tick (setBits v 2#64 d.gatecfg)).gateErr else d.setGate s.tick v)

/-- GATELOAD as read (Table 18-2). -/
def Die.readGateload (d : Die) : BitVec 64 := d.gateload ||| (if d.load.isSome then 0x8000000000000000#64 else 0)

/-- GATE_LOAD (R339): a write of GATELOAD; with GO it starts a load, or is refused with ERR. A load takes a time the spec
does not give (log 3). -/
def execGateLoad (die : Nat) (v : BitVec 64) (s : State) : Out :=
  let d := s.die die
  let keep := if rbit v 62 then d.gateload &&& ~~~0x4000000000000000#64 else d.gateload
  let d := { d with gateload := setBits keep 0x1FFFFFFFFFFFC0#64 v }
  let put := fun (d : Die) (s : State) => s.modDie die fun _ => d
  if !rbit v 61 then .next (put d s)
  else
    let bank : BitVec 1 := field v 52 1
    let src := rfield v 6 46 * 64
    let len := 2 * (rfield d.gatecfg 16 7 + 1) * (64 * (rfield d.gatecfg 9 7 + 1))
    if d.load.isSome || (rbit d.gatecfg 0 && bank == field d.gatecfg 1 1) || !s.iaLocal src then .next (put d.gateErr s)
    else
      let r := s.choose 1000000
      .next (put { d with load := some ⟨bank, src, len, s.tick + 1 + r.1⟩ } r.2)

/-- GATE_LOAD_COMPLETE (R339): the bank holds the bytes; at an unmapped page the load stops with ERR, and how many bytes
before it were loaded is free (log 3). A DRAM replay delays it (R386). -/
def execGateLoadComplete (die : Nat) (s : State) : Out :=
  match (s.die die).load with
  | none => .next s
  | some l =>
    if s.tick < l.till || s.linesRetiring (linesOf [(l.src, l.len)]) then .next s
    else
      let hole := (pagesOf l.src l.len).find? fun p => (s.iaLoc (Nat.max l.src (p * 65536)) false).isNone
      let r := match hole with
        | none => (l.len, s)
        | some p => s.choose (p * 65536 - l.src + 1)
      let e := r.2.streamErrors l.src r.1
      if e.1 ≠ 0 then .next (e.2.modDie die fun d => { d with load := some { l with till := s.tick + e.1 } })
      else
      let s := e.2.streamLines none l.src r.1
      let bs := s.sideBytes .mem l.src r.1
      .next (s.modDie die fun d =>
        let d := { d with load := none }
        let d := if l.bank = 1 then { d with bank1 := d.bank1.writes 0 bs } else { d with bank0 := d.bank0.writes 0 bs }
        if hole.isSome then d.gateErr else d)

end Sys2Proof.Machine
end

