-- ==== Sys2Proof/Machine/Fabric.lean ====
section
/-!
DEFINITION. The Axtum fabric (R314 to R335) and SEND.g (R340 to R342): the LINK group, channel ends, credit, messages,
receives, markers and in-switch reduction.
-/
namespace Sys2Proof.Machine

/-! ### Channels (R315, R316, R319) -/

/-- Index of a channel end. -/
def chanIdx (peer chan : Nat) : Nat := 16 * (peer % 16) + chan % 16
/-- A channel end. -/
def State.chan (s : State) (i : Nat) : Chan := s.fabric.chans.getD i {}
/-- A channel end changed. -/
def State.modChan (s : State) (i : Nat) (f : Chan → Chan) : State :=
  { s with fabric := { s.fabric with chans := s.fabric.chans.setIfInBounds i (f (s.chan i)) } }
/-- The channel of a route word: PEER and CHAN, bits[7:0] (Table 17-5). -/
def routeChan (x : Word) : Nat := rfield x 0 8
/-- GEN of a route word. -/
def routeGen (x : Word) : BitVec 8 := x.extractLsb' 8 8
/-- Is a channel's peer this package? -/
def State.ownChan (s : State) (i : Nat) : Bool := i / 16 == s.regs.domain.toNat
/-- The die of a channel's port (R315). -/
def chanDie (i : Nat) : Nat := i % 16 / 8
/-- The port of a channel, which the firmware chooses within its die (R315; log 3). -/
def chanPort (i : Nat) : Nat := 24 * chanDie i + Config.choiceAt 6 i 0 % 24
/-- Is a channel end bound to the context of a core (R316)? -/
def State.bound (s : State) (n i : Nat) : Bool := (s.chan i).en && s.asidAt n == some (s.chan i).asid

/-- Flits of a message with a payload (R317). -/
def flitsOf (b : Nat) : Nat := 1 + (b + 63) / 64
/-- Flits of a message. -/
def msgFlits (m : Message) : Nat := flitsOf m.payload.length

/-- Normal flits of a queue that hold a message or are granted to one (R318, R321). -/
def Chan.used (c : Chan) : Nat :=
  c.granted + ((c.queue.filter fun e => !e.2).map fun e => msgFlits e.1).foldl (· + ·) 0
/-- Reserved flits in use (R318, R332). -/
def Chan.usedRes (c : Chan) : Nat := ((c.queue.filter fun e => e.2).map fun e => msgFlits e.1).foldl (· + ·) 0
/-- Can the next message be granted direct: the queue holds no message, and a RECV is posted and not yet matched (R321)? -/
def Chan.direct (c : Chan) : Bool := c.queue.isEmpty && !c.posted.isEmpty

/-! ### Bytes of elements -/

/-- Codes of a width packed as bytes, in linear order. -/
def packBytes (w : Nat) : List Nat → List Byte
  | [] => []
  | a :: rest =>
    if w < 8 then
      match rest with
      | b :: more => BitVec.ofNat 8 (a + 16 * b) :: packBytes w more
      | [] => [BitVec.ofNat 8 a]
    else toLe (w / 8) a ++ packBytes w rest

/-- Code `i` of a width in some bytes. -/
def codeAtByte (w : Nat) (bs : List Byte) (i : Nat) : Nat :=
  leNat ((bs.drop (w * i / 8)).take ((w + 7) / 8)) / 2 ^ (w * i % 8) % 2 ^ w

/-- `n` codes of a width. -/
def unpackBytes (w n : Nat) (bs : List Byte) : List Nat := (List.range n).map (codeAtByte w bs)

/-! ### Issue (R319, R320) -/

/-- SEND (R320). -/
def execSend (dl : BitVec 6) (xs : BitVec 5) (kout kin : BitVec 4) (s : State) : Out :=
  .next (s.issueEng (.send false false dl (s.rx xs)) .other kout kin)
/-- SEND.q (R320). -/
def execSendQ (dl : BitVec 6) (xs : BitVec 5) (kout kin : BitVec 4) (s : State) : Out :=
  .next (s.issueEng (.send true false dl (s.rx xs)) .other kout kin)
/-- SEND.g (R340). -/
def execSendG (dl : BitVec 6) (xs : BitVec 5) (kout kin : BitVec 4) (s : State) : Out :=
  .next (s.issueEng (.send false true dl (s.rx xs)) .other kout kin)
/-- SENDR (R329). -/
def execSendr (dl : BitVec 6) (xs : BitVec 5) (kout kin : BitVec 4) (s : State) : Out :=
  .next (s.issueEng (.sendr dl (s.rx xs)) .other kout kin)
/-- RECV (R323). -/
def execRecv (dl : BitVec 6) (xs : BitVec 5) (kout kin : BitVec 4) (s : State) : Out :=
  .next (s.issueEng (.recv dl (s.rx xs)) .recv kout kin)

/-- RECVQ (R324). -/
def execRecvq (xd xs : BitVec 5) (s : State) : Out :=
  let i := routeChan (s.rx xs)
  let c := s.chan i
  if !s.bound s.act i then xHeld xd 0 s
  else
    let head := (c.queue.head?).map (·.1)
    let kind := match head with
      | some m => (match m.kind with | .data => 0 | .quantised => 1 | .gated => 2 | .result => 3)
      | none => 0
    let hb := match head with
      | some m => m.payload.length
      | none => 0
    let fl := (c.queue.map fun e => msgFlits e.1).foldl (· + ·) 0
    xHeld xd (BitVec.ofNat 64 (2 ^ 63 + (if c.generr then 2 ^ 62 else 0) + c.oldest.toNat * 2 ^ 48 + kind * 2 ^ 46
      + hb * 2 ^ 32 + fl * 65536 + c.queue.length)) s

/-- GRETIRE (R327): a marker that follows the earlier SENDs of the core to the channel. One for another package, with 1 in `aux`,
leaves this one as soon as it has entered the channel. A channel end that is not bound takes none. -/
def execGretire (xs : BitVec 5) (s : State) : Out :=
  let x := s.rx xs
  let i := routeChan x
  if !s.bound s.act i then .next s
  else .next (s.onMe fun c => ({ c with
    eng := { c.eng with eng := c.eng.eng ++ [{ id := c.uid, kind := .marker x, kin := {}, aux := if s.ownChan i then 0 else 1 }] }
    uid := c.uid + 1 } : Core).cullMarkers)

/-! ### What a send checks and sends (R317, R320, R322, R340, R341) -/

/-- A send's channel, if an operation is one. -/
def EngOp.sendChan (o : EngOp) : Option Nat :=
  match o.kind with
  | .send _ _ _ x => some (routeChan x)
  | _ => none

/-- The channel of a send or a marker. -/
def EngOp.wayChan (o : EngOp) : Option Nat :=
  match o.kind with
  | .send _ _ _ x | .marker x => some (routeChan x)
  | _ => none

/-- A receive's channel. -/
def EngOp.recvChan (o : EngOp) : Option Nat :=
  match o.kind with
  | .recv _ x => some (routeChan x)
  | _ => none

/-- BAD_LAST of a fabric operation (R320): RANK 0, SPACE 3, or a SPACE 2 side on a slice not held or gated. -/
def State.badFabric (s : State) (core : Nat) (l : Last) : Bool :=
  l.rank == 0 || l.space == 3 ||
    (l.space == 2 && (!(match s.kernelOf core with
      | some k => k.rods.contains l.slice
      | none => false) || !(s.rod l.slice).sliceUp))

/-- REMOTE of a fabric operation's source. -/
def State.remoteLast (s : State) (l : Last) : Bool := l.space == 0 && !s.bytesLocal l.iaBase l.footprint

/-- E, H, k and BANK of a gate configuration (Table 18-1). -/
def gateE (g : BitVec 64) : Nat := rfield g 16 7 + 1
/-- H. -/
def gateH (g : BitVec 64) : Nat := 64 * (rfield g 9 7 + 1)
/-- k. -/
def gateK (g : BitVec 64) : Nat := rfield g 6 3 + 1

/-- Payload bytes of a SEND from a last (R317, R340). -/
def sendBytes (q g : Bool) (l : Last) : Nat :=
  if g then 2 * l.count + 64 * l.ext 1 else if q then l.count + l.count / 16 else l.elemBytes

/-- Bytes through the resources of a SEND (R322). -/
def State.sendUse (s : State) (core chan : Nat) (l : Last) : Use :=
  (s.useLast core (chanDie chan) l false []).add (.port (chanPort chan)) l.elemBytes

/-- X of R322: the side or the issuing core lies on the other die from a channel's port. -/
def otherDie (core chan : Nat) (u : Use) : Bool :=
  dieOf core != chanDie chan || u.any fun e => match e.1 with | .crossing _ => decide (e.2 > 0) | _ => false

/-- The first failing check of a SEND, reasons 2 to 16, or 0 (R320, R340). -/
def State.sendReason (s : State) (core : Nat) (q g : Bool) (l : Last) (chan : Nat) : Nat :=
  let cfg := (s.die (chanDie chan)).gatecfg
  if s.badFabric core l then 2
  else if decide (l.footprint > 2 ^ 32) || (q && (!isFloatTy l.ty || l.count % 32 != 0))
      || (g && (l.ty != .bf16 || l.rank > 2 || l.ext 0 != gateH cfg)) then 3
  else if s.remoteLast l then 6
  else if !s.bound core chan then 15
  else if g && (!rbit cfg 0 || some (rfield cfg 31 9) != s.asidOf core) then 16
  else if s.rate core (s.sendUse core chan l) l.elemBytes < 8 then 8
  else 0

/-- One gate record (R341): the sixteen words of a routing row, and the flags. -/
def gateRecord (bank : Mem) (e h k : Nat) (gen : BitVec 8) (x : List FVal) : List Nat × Flags :=
  let rs := (List.range e).map fun i =>
    matSum .rne ((List.range h).map fun j =>
      (FFmt.bf16.decode (leNat (bank.bytes (2 * (i * h + j)) 2))).mul (x.getD j (.fin false 0)))
  let w := topK k (rs.map fun r => FFmt.fp32.decode r.1)
  let ids := (List.range 8).map fun j => match w[j]? with
    | some i => gen.toNat * 256 + i
    | none => 0xFFFFFFFF
  let vals := (List.range 8).map fun j => match w[j]? with
    | some i => (rs.getD i (0, 0)).1
    | none => 0
  (ids ++ vals, flagsAll (rs.map (·.2)))

/-- The message a SEND forms from its source, and the flags it raises (R317, R320, R341). -/
def State.sendMessage (s : State) (core : Nat) (q g : Bool) (l : Last) (x : Word) : Message × Flags :=
  let codes := s.lastElems core l 0 l.count
  let head := fun (kind : MsgKind) (ty : ElemTy) (p : List Byte) =>
    ({ kind := kind, ty := ty, count := l.count, gen := routeGen x, sender := s.regs.domain, payload := p } : Message)
  if g then
    let d := s.die (chanDie (routeChan x))
    let cfg := d.gateFor s.tick
    let bank := if rbit cfg 1 then d.bank1 else d.bank0
    let h := gateH cfg
    let rs := (List.range (l.ext 1)).map fun t =>
      gateRecord bank (gateE cfg) h (gateK cfg) (routeGen x) (((codes.drop (h * t)).take h).map FFmt.bf16.decode)
    (head .gated .bf16 (packBytes 16 codes ++ rs.flatMap fun r => r.1.flatMap (toLe 4)), flagsAll (rs.map (·.2)))
  else if q then
    let vals := codes.map (elemVal l.ty)
    let bs := (List.range (l.count / 32)).map fun i => quantise .db8 ((vals.drop (32 * i)).take 32)
    (head .quantised .db8 (packBytes 8 (bs.flatMap (·.2.1)) ++
      bs.flatMap fun b => [BitVec.ofNat 8 b.1.1, BitVec.ofNat 8 b.1.2]), flagsAll (bs.map (·.2.2)))
  else (head .data l.ty (packBytes l.width codes), 0)

/-! ### Credit and acceptance (R321, R322) -/

/-- Path time of a channel: at most 70 ticks within the package, 280 to another (R321); free from 1 on (log 3). -/
def State.pathTime (s : State) (i : Nat) : Nat × State :=
  let r := s.choose (if s.ownChan i then 70 else 280)
  (r.1 + 1, r.2)

/-- Is an earlier SEND of a core to the same channel at a stage before `stage`, or, from stage 3, unaccepted; or, from then on, has
an earlier marker not yet entered the channel (R321, R327)? -/
def Core.sendBehind (c : Core) (op chan stage : Nat) : Bool :=
  c.eng.eng.any fun o => decide (o.id < op) && o.wayChan == some chan && !o.accepted &&
    (if o.sendChan.isSome then decide (o.aux < stage) else decide (3 ≤ stage))

/-- The tick at which a request or a grant for a core arrives, no earlier than those before it of the same core (R315, R321). -/
def afterOwn (ref t : Nat) (l : List (Nat × Nat)) : Nat :=
  l.foldl (fun t e => if e.1 = ref then Nat.max t e.2 else t) t

/-- The grant that has reached an operation (R321). -/
def State.grantOf (s : State) (i ref op : Nat) : Option Grant :=
  (s.chan i).grants.find? fun g => g.core == ref && g.op == op && decide (g.arrives ≤ s.tick)

/-- Does a send wait before it reads its source: for stores of its core to the source's lines (R243), or for a page of it that is being
retired (R394)? -/
def State.sourceWaits (s : State) (core op : Nat) (l : Last) : Bool :=
  s.storesPending core op 0 l || (l.space == 0 && s.spansRetiring [(l, false, none)])

/-- A SENDR that passes its checks sends its contribution (R329, R330), after the DRAM replays of its read (R386). One that reads an
unmapped page sends nothing. -/
def State.sendrGo (s : State) (core op : Nat) (o : EngOp) (l : Last) (x : Word) : State :=
  let s' := s.modCore core fun c => c.modEng op fun o => { o with accepted := true, acceptTick := s.tick, aux := s.tick }
  if (s.opHole core o).isSome then s'
  else
    let e := if l.space = 0 then s'.engAccess core o.kout.toNat (linesOf l.runs) false else (0, s')
    let s' := e.2
    let r := s'.choose 1000000
    let elems := (s'.lastElems core l 0 l.count).map (BitVec.ofNat 32)
    let c : Contribution := ⟨s.regs.domain, rfield x 40 24, field x 24 16, field x 16 8, field x 14 2, field x 0 4, l.ty, elems⟩
    { r.2 with fabric := { r.2.fabric with
      switch := r.2.fabric.switch ++ [.contribution (s.refOf core) op (rfield x 4 10) c (s.tick + e.1 + r.1)] } }

/-- Messages already on the way on a channel land no later than a message that follows them (R315, R321). -/
def capWire (t : Nat) (w : List Wire) : List Wire := w.map fun e => { e with arrives := Nat.min e.arrives t }

/-- The acceptance of a granted SEND (R322, R341): its promise, and its message enters the channel. A DRAM replay of its read delays it
(R386). -/
def State.sendGo (s : State) (core op : Nat) (o : EngOp) (q g : Bool) (l : Last) (x : Word) (gr : Option Grant) (rho : Nat) :
    State :=
  let i := routeChan x
  let u := s.sendUse core i l
  let w := flitsOf (sendBytes q g l)
  let base := 700 + (if otherDie core i u then 62 else 0) + (if s.ownChan i then 70 else 280)
  let ticks := base + (7 * 64 * w + 5 * rho - 1) / (5 * rho)
  let hole := (s.opHole core o).isSome
  let e := if l.space = 0 && !hole then s.engAccess core o.kout.toNat (linesOf l.runs) false else (0, s)
  let s1 := e.2
  let m := s1.sendMessage core q g l x
  let s1 := s1.acceptEng core op ticks (resvOf core rho l.elemBytes u)
  let s1 := s1.modCore core fun c => c.modEng op fun o => { o with flags := m.2, late := e.1 }
  let ref := s.refOf core
  let s1 := s1.modChan i fun c => { c with grants := c.grants.filter fun e => !(e.core == ref && e.op == op) }
  if hole || !s.ownChan i then s1
  else
    let land := match (s1.eng? core op) with
      | some o => o.aux
      | none => s.tick
    let direct := gr.bind (·.direct)
    let t := (if direct.isSome then Nat.min land (s.tick + base) else land) + e.1
    s1.modChan i fun c => { c with wire := capWire t c.wire ++ [⟨ref, op, m.1, direct, t⟩] }

/-- The first failing check of a SENDR, or 0 (R329). -/
def State.sendrReason (s : State) (core : Nat) (l : Last) (x : Word) : Nat :=
  if s.badFabric core l then 2
  else if !(l.ty == .fp32 || l.ty == .int32) || l.count > 256 || rfield x 14 2 = 3 || l.footprint > 2 ^ 32 then 3
  else if s.remoteLast l then 6
  else if !s.bound core (chanIdx s.regs.domain.toNat (rfield x 0 4)) then 15
  else 0

/-- SEND_ACCEPT (R320 to R322, R340): a send is checked once its kin is complete; it asks for credit in issue order; and once
its grant is there, earlier SENDs are accepted and the rate suffices, it is accepted. A SENDR sends its contribution. -/
def execSendAccept (core op : Nat) (s : State) : Out :=
  match s.eng? core op with
  | none => .next s
  | some o =>
    let c := s.core core
    let refuse := fun n : Nat => Host.Outcome.next (s.modCore core fun c => c.refuse op n)
    if o.accepted || !s.engGo core op || !c.arch.tokEnded o.kin then .next s
    else match o.kind with
    | .sendr d x =>
      let l := s.last core d
      let why := s.sendrReason core l x
      if c.arch.tokState o.kin == .refused then refuse 1
      else if why != 0 then refuse why
      else if s.sourceWaits core op l then .next s
      else .next (s.sendrGo core op o l x)
    | .send q g d x =>
      let l := s.last core d
      let i := routeChan x
      if o.aux = 0 then
        if c.arch.tokState o.kin == .refused then refuse 1
        else
          let why := s.sendReason core q g l i
          if why != 0 then refuse why else .next (s.modCore core fun c => c.modEng op fun o => { o with aux := 1 })
      else if o.aux = 1 then
        if c.sendBehind op i 2 then .next s
        else
          let r := s.pathTime i
          let ref := s.refOf core
          let t := afterOwn ref (s.tick + r.1) ((s.chan i).reqs.map fun e => (e.core, e.arrives))
          let q' : CreditReq := ⟨ref, op, flitsOf (sendBytes q g l), t⟩
          let s := r.2.modCore core fun c => c.modEng op fun o => { o with aux := 2 }
          .next (s.modChan i fun c => { c with reqs := insertBy (·.arrives) q' c.reqs })
      else match s.grantOf i (s.refOf core) op with
        | none => .next s
        | some gr =>
          let rho := s.rate core (s.sendUse core i l) l.elemBytes
          if c.sendBehind op i 3 || rho < 8 || s.sourceWaits core op l then .next s
          else .next (s.sendGo core op o q g l x (some gr) rho)
    | _ => .next s

/-- Is there room for a message of some flits: direct, or in the queue (R321)? -/
def Chan.room (c : Chan) (flits : Nat) : Bool := c.direct || decide (flits ≤ 128 && flits + c.used ≤ 128)

/-- Room for a message is granted: the earliest RECV posted and not yet matched, or flits of the queue (R321). -/
def Chan.grantRoom (c : Chan) (flits : Nat) : Option (Nat × Nat) × Chan :=
  if c.direct then (c.posted.head?, { c with posted := c.posted.tail }) else (none, { c with granted := c.granted + flits })

/-- Can the receiving end of a channel grant its oldest request now (R321)? -/
def State.canGrant (s : State) (i : Nat) : Bool :=
  let c := s.chan i
  match c.reqs with
  | [] => false
  | r :: _ => decide (r.arrives ≤ s.tick) && !(c.grants.any fun g => decide (g.arrives ≤ s.tick)) && c.room r.flits

/-- Can it grant the oldest request of another package? -/
def Chan.canAdmit (c : Chan) : Bool := match c.asks with
  | [] => false
  | w :: _ => c.en && c.room w

/-- The oldest request of another package is granted. -/
def Chan.letIn (c : Chan) : Chan := match c.asks with
  | [] => c
  | w :: rest =>
    let r := c.grantRoom w
    { r.2 with asks := rest, inbound := c.inbound ++ [(w, r.1)] }

/-- A request or a grant of `w` flits of another package is withdrawn (R333): the latest such. -/
def Chan.retract (c : Chan) (w : Nat) : Chan :=
  if c.asks.contains w then { c with asks := (c.asks.reverse.erase w).reverse }
  else match c.inbound.reverse.find? fun e => e.1 == w with
    | none => c
    | some e =>
      { c with
        inbound := (c.inbound.reverse.erase e).reverse
        granted := if e.2.isNone then c.granted - w else c.granted
        posted := e.2.toList ++ c.posted }

/-- CREDIT_GRANT (R321): the oldest request is granted, direct or queued. On a channel of another package, a plain channel number says
that its end grants this package's oldest request, which reaches this package with this step. What its SENDs do at this package's
end is coded above the channel number, in units of 16 (log 1): 1 grants its oldest request; from 2 on a request of so many
flits arrives; from 65,536 on one of so many flits above that is withdrawn. -/
def execCreditGrant (peer chan : Nat) (s : State) : Out :=
  let i := chanIdx peer chan
  let c := s.chan i
  if !s.ownChan i && decide (16 ≤ chan) then
    let w := chan / 16
    .next (s.modChan i fun c =>
      if w = 1 then (if c.canAdmit then c.letIn else c)
      else if w < 65536 then { c with asks := c.asks ++ [w] }
      else c.retract (w - 65536))
  else match c.reqs with
  | [] => .next s
  | r :: rest =>
    if !s.ownChan i then
      .next (s.modChan i fun c => { c with reqs := rest, grants := c.grants ++ [⟨r.core, r.op, r.flits, none, s.tick⟩] })
    else if !s.canGrant i then .next s
    else
      let p := s.pathTime i
      let t := afterOwn r.core (s.tick + p.1) (c.grants.map fun g => (g.core, g.arrives))
      .next (p.2.modChan i fun c =>
        let g := c.grantRoom r.flits
        { g.2 with reqs := rest, grants := c.grants ++ [⟨r.core, r.op, r.flits, g.1, t⟩] })

/-- SEND_COMPLETE (R322): the last flit has landed. -/
def execSendComplete (core op : Nat) (s : State) : Out :=
  match s.engAt? core op with
  | none => .next s
  | some o =>
    match o.sendChan with
    | none => .next s
    | some i =>
      let ref := if core < 256 then s.refOf core else core
      if !o.accepted || decide (s.tick < o.aux + o.late) || (s.opHole core o).isSome
          || (s.chan i).wire.any (fun w => w.core == ref && w.op == op) then .next s
      else .next (s.modCoreAt core fun c => c.complete op s.tick (o.flags.zeroExtend 16 <<< 5))

/-! ### Receives (R323) -/

/-- RECV_POSTED (R323): a RECV is posted, in issue order, once its kin is complete and its checks pass. RECVs posted in one
tick stand in the order of their cores. -/
def execRecvPosted (core op : Nat) (s : State) : Out :=
  match s.eng? core op with
  | none => .next s
  | some o =>
    match o.kind with
    | .recv d x =>
      let c := s.core core
      let l := s.last core d
      let i := routeChan x
      let refuse := fun n : Nat => Host.Outcome.next (s.modCore core fun c => c.refuse op n)
      if o.accepted || o.aux ≠ 0 || !s.engGo core op || !c.arch.tokEnded o.kin
          || c.eng.eng.any (fun e => decide (e.id < op) && e.recvChan == some i && e.aux == 0) then .next s
      else if c.arch.tokState o.kin == .refused then refuse 1
      else if s.badFabric core l then refuse 2
      else if l.ro then refuse 4
      else if l.space == 2 && (s.rod l.slice).slice.disabledIn l.base l.footprint then refuse 5
      else if !s.bound core i then refuse 15
      else
        let first := fun e : Nat × Nat => match s.engAt? e.1 e.2 with
          | some q => decide (q.acceptTick < s.tick) || decide (s.phys e.1 ≤ core)
          | none => true
        let s := s.modChan i fun c => { c with
          posted := c.posted.takeWhile first ++ (s.refOf core, op) :: c.posted.dropWhile first }
        .next (s.modCore core fun c => c.modEng op fun o => { o with aux := 1, acceptTick := s.tick })
    | _ => .next s

/-- Does a message fit a last (Table 17-7, R342)? -/
def fits (l : Last) (m : Message) : Bool :=
  match m.kind with
  | .data => l.ty == m.ty && l.count == m.count
  | .quantised => (l.ty == .db8 || isFloatTy l.ty) && l.count == m.count
  | .gated => l.ty == .bf16 && 2 * l.count == m.payload.length
  | .result => l.ty == m.ty && 4 * l.count == m.payload.length

/-- Why a RECV that has met a message is refused: SHAPE, or BAD_LAST for a plane it would write (R53), or 0. -/
def State.recvReason (s : State) (n : Nat) (l : Last) (m : Message) : Nat :=
  if m.kind == .quantised && l.ty == .db8 && (s.planeAt n l true).isNone then 2
  else if !fits l m then 3
  else 0

/-- A RECV accepted with a message and a promise; it completes at a free tick up to it (log 3), or at `land`. -/
def State.recvGo (s : State) (n op : Nat) (m : Message) (ticks : Nat) (rv : List (Resv × Nat × Nat)) (land : Option Nat) : State :=
  let r := s.choose ticks
  let done := match land with
    | some t => Nat.max s.tick (Nat.min t (s.tick + ticks))
    | none => s.tick + 1 + r.1
  r.2.modCoreAt n fun c => (c.modEng op fun o =>
    { o with accepted := true, acceptTick := s.tick, promise := s.tick + ticks, resv := rv, aux := done, msg := some m }).promise
      op (s.tick + ticks)

/-- Bytes through the resources of a RECV's destination (R323). -/
def State.recvUse (s : State) (n chan : Nat) (l : Last) : Use := s.useLast (s.phys n) (chanDie chan) l true []

/-- RECV_ACCEPT (R323): the earliest posted RECV takes the message at the head of the queue, once the rate suffices; it is then
consumed, also where it does not fit. -/
def execRecvAccept (core op : Nat) (s : State) : Out :=
  match s.eng? core op with
  | none => .next s
  | some o =>
    match o.kind with
    | .recv d x =>
      let i := routeChan x
      let c := s.chan i
      match c.queue, c.posted with
      | (m, _) :: rest, h :: more =>
        if o.accepted || h != (s.refOf core, op) || !s.engGo core op then .next s
        else
          let l := s.last core d
          let why := s.recvReason core l m
          let s' := s.modChan i fun c => { c with queue := rest, posted := more }
          let u := s.recvUse core i l
          let rho := s.rate core u l.elemBytes
          if rho < 8 then .next s
          else if why != 0 then .next (s'.modCore core fun c => c.refuse op why)
          else
            let ticks := 700 + (if otherDie core i u then 62 else 0) + (7 * 64 * msgFlits m + 5 * rho - 1) / (5 * rho)
            .next (s'.recvGo core op m ticks (resvOf core rho l.elemBytes u) none)
      | _, _ => .next s
    | _ => .next s

/-- A message lands direct in a RECV: its header arrives now (R323). -/
def State.landDirect (s : State) (i : Nat) (rv : Nat × Nat) (m : Message) (land : Option Nat) : State :=
  match s.engAt? rv.1 rv.2 with
  | none => s
  | some o =>
    match o.kind with
    | .recv d _ =>
      let l := s.lastAt rv.1 d
      let why := s.recvReason rv.1 l m
      if why != 0 then s.modCoreAt rv.1 fun c => c.refuse rv.2 why
      else
        let u := s.recvUse rv.1 i l
        s.recvGo rv.1 rv.2 m (56 + (if otherDie (s.phys rv.1) i u then 62 else 0) + (7 * 64 * msgFlits m + 499) / 500) [] land
    | _ => s

/-- The codes a RECV writes, the exponent pairs, and the flags (Table 17-7). -/
def recvVals (l : Last) (m : Message) : List Nat × Option (List Byte) × Flags :=
  match m.kind with
  | .quantised =>
    let codes := unpackBytes 8 m.count m.payload
    let plane := m.payload.drop m.count
    if l.ty == .db8 then (codes, some plane, 0)
    else match fmtOf l.ty with
      | some f =>
        let rs := (codes.zipIdx).map fun e =>
          f.encode .rne (dbDecode .db8 e.1 (plane.getD (2 * (e.2 / 32)) 0).toNat (plane.getD (2 * (e.2 / 32) + 1) 0).toNat)
        (rs.map (·.1), none, flagsAll (rs.map (·.2)))
      | none => (codes, none, 0)
  | _ => (unpackBytes l.width l.count m.payload, none, 0)

/-- The elements of a RECV that land, and are counted by a byte barrier, a tick before the others: a free number of the
destination's granules, where these lie in one run of whole granules (R276, R303, log 24). -/
def State.recvPart (s : State) (o : EngOp) (l : Last) (x : Word) : Nat × State :=
  let per := 512 / l.width
  if !rbit x 16 || l.space == 0 || o.landed != 0 || l.base % 64 != 0 || l.runs.length != 1 || decide (o.promise ≤ s.tick)
      || decide (l.count ≤ per) then (0, s)
  else
    let r := s.choose ((l.count + per - 1) / per)
    (r.1 * per, r.2)

/-- RECV_COMPLETE (R323, R303): the message is written, byte barriers count the bytes that landed in the scratchpad or
staging, and the token completes; some of the granules may be written before the others. Lines of a slice that was quarantined
meanwhile read zero (R400). -/
def execRecvComplete (core op : Nat) (s : State) : Out :=
  match s.engAt? core op with
  | none => .next s
  | some o =>
    match o.kind, o.msg with
    | .recv _ x, some m =>
      let sd := s.sidesOf core o
      let l := sd.dstLast
      if !o.accepted || decide (s.tick < o.aux + o.late) || (s.opHole core o).isSome || s.opWaits core o then .next s
      else
        let v := recvVals l m
        let count := fun (n : Nat) (c : Core) =>
          if rbit x 16 && l.space != 0 then c.barbMove (x.extractLsb' 17 4) (-((n * l.width / 8 : Nat) : Int)) false else c
        let part := s.recvPart o l x
        let put := fun (s : State) (j : Nat) (vs : List Nat) =>
          s.engPut core op (l.side (s.phys core)) (s.elemsCells (s.phys core) l j vs)
        if part.1 != 0 then
          .next ((put part.2 0 (v.1.take part.1)).modCoreAt core fun c =>
            count part.1 (c.modEng op fun o => { o with landed := part.1, aux := s.tick + 1, late := 0 }))
        else
        let s := part.2
        let s := (s.opSpans core o).foldl (fun s e => s.engLines core o.kout.toNat (spanLines e) true) s
        let s := put s o.landed (v.1.drop o.landed)
        let s := match v.2.1, sd.dstPlane with
          | some bs, some p => s.engPut core op .mem (cellsAt p bs)
          | _, _ => s
        .next ((s.dropLost o l).modCoreAt core fun c =>
          (count (l.count - o.landed) c).complete op s.tick (v.2.2.zeroExtend 16 <<< 5))
    | _, _ => .next s

/-! ### Arrivals (R318, R326 to R328) -/

/-- Is a generation inside the window of a channel end (R326)? -/
def Chan.inWindow (c : Chan) (g : BitVec 8) : Bool := decide ((g - c.oldest).toNat < 128)

/-- A generation error (R328): GENERR, and LINK_GEN on HOME, now or when the owner next runs there. -/
def State.genError (s : State) (i : Nat) (g : BitVec 8) : State :=
  let c := s.chan i
  let d := BitVec.ofNat 64 (g.toNat * 256 + i)
  let s := s.modChan i fun c => { c with generr := true }
  if s.asidOf c.home == some c.asid then s.pendTrap c.home 9 d
  else { s with fabric := { s.fabric with linkGen := s.fabric.linkGen ++ [(c.home, c.asid, d)] } }

/-- A result at a channel end (R332): direct, or into the reserved flits; none while it must wait. -/
def State.takeResult (s : State) (i : Nat) (m : Message) : Option State :=
  let c := s.chan i
  if !c.en then some s
  else if !c.inWindow m.gen then some (s.genError i m.gen)
  else if c.direct then
    some ((s.modChan i fun c => { c with posted := c.posted.tail }).landDirect i (c.posted.headD (0, 0)) m none)
  else if msgFlits m + c.usedRes ≤ 18 then some (s.modChan i fun c => { c with queue := c.queue ++ [(m, true)] })
  else none

/-- A message of another package arrives as it was granted: in the RECV that it matched then, or in the queue (R321, R323). Of the grants
of its flits it has a free one, since messages enter the channel in the order of their acceptance (log 3). One that was not granted does
not come. -/
def State.takeIn (s : State) (i : Nat) (m : Message) : State :=
  let fit := (s.chan i).inbound.filter fun e => e.1 == msgFlits m
  let r := s.choose fit.length
  match fit[r.1]? with
  | none => s
  | some (w, rv) =>
      let c := s.chan i
      let s := r.2.modChan i fun c =>
        { c with inbound := c.inbound.erase (w, rv), granted := if rv.isNone then c.granted - w else c.granted }
      match rv with
      | some rv =>
        if c.en && !c.inWindow m.gen then (s.genError i m.gen).modChan i fun c => { c with posted := rv :: c.posted }
        else s.landDirect i rv m none
      | none =>
        if !c.en then s
        else if !c.inWindow m.gen then s.genError i m.gen
        else s.modChan i fun c => { c with queue := c.queue ++ [(m, false)] }

/-- A message of this package that reaches its own end of a channel (R318, R321). -/
def State.landWire (s : State) (i : Nat) (w : Wire) : State :=
  let c := s.chan i
  let done := fun (s : State) => s.modCoreAt w.core fun c => c.modEng w.op fun o => { o with aux := Nat.min o.aux s.tick }
  let s := s.modChan i fun c => { c with wire := c.wire.tail }
  match w.direct with
  | some rv =>
    if c.en && !c.inWindow w.msg.gen then (done (s.genError i w.msg.gen)).modChan i fun c => { c with posted := rv :: c.posted }
    else
      let land := (s.engAt? w.core w.op).map fun o => o.aux + o.late
      let s := s.landDirect i rv w.msg land
      match s.engAt? rv.1 rv.2 with
      | some o => s.modCoreAt w.core fun c => c.modEng w.op fun e =>
          { e with aux := Nat.min (e.aux + e.late) (Nat.max s.tick o.aux), late := 0 }
      | none => done s
  | none =>
    let s := done (s.modChan i fun c => { c with granted := c.granted - msgFlits w.msg })
    if !c.en then s
    else if !c.inWindow w.msg.gen then s.genError i w.msg.gen
    else s.modChan i fun c => { c with queue := c.queue ++ [(w.msg, false)] }

/-- Is something in the switches a result for a channel? -/
def SwitchMsg.resultOf (i : Nat) : SwitchMsg → Bool
  | .result c _ _ => c == i
  | _ => false

/-- The first result for a channel that is on its way or waits in a switch, behind which the others stand (R315, R321, R332). -/
def State.firstResult (s : State) (i : Nat) : Option SwitchMsg := s.fabric.switch.find? (SwitchMsg.resultOf i)

/-- MESSAGE_ARRIVAL (R318, R321, R332): a message reaches this package's end of a channel: the next one on the way from this
package itself, a result that waits in the switch, or one that another package sends. -/
def execMessageArrival (peer chan : Nat) (m : Message) (s : State) : Out :=
  let i := chanIdx peer chan
  if s.ownChan i then
    match (s.chan i).wire with
    | w :: _ =>
      if w.msg == m && decide (w.arrives ≤ s.tick) then .next (s.landWire i w) else .next s
    | [] =>
      let hit := fun e : SwitchMsg => match e with
        | .result _ r t => r == m && decide (t ≤ s.tick)
        | _ => false
      match (s.firstResult i).filter hit with
      | none => .next s
      | some e =>
        match ({ s with fabric := { s.fabric with switch := s.fabric.switch.erase e } }).takeResult i m with
        | some s => .next s
        | none => .next s
  else .next (s.takeIn i m)

/-- A marker's count at a channel end. -/
def Chan.marksOf (c : Chan) (g : BitVec 8) : Nat := ((c.marks.find? fun e => e.1 == g).map (·.2)).getD 0

/-- OLDEST moves past generations whose markers are complete (R326). -/
def Chan.advance (c : Chan) : Nat → Chan
  | 0 => c
  | n + 1 =>
    if c.marksOf c.oldest > c.sources then
      ({ c with marks := c.marks.filter (fun e => e.1 != c.oldest), oldest := c.oldest + 1 }).advance n
    else c

/-- A marker is counted (R326), or is an error (R328). -/
def State.countMarker (s : State) (i : Nat) (g : BitVec 8) : State :=
  let c := s.chan i
  if !c.en then s
  else if !c.inWindow g then s.genError i g
  else s.modChan i fun c =>
    ({ c with marks := (g, c.marksOf g + 1) :: c.marks.filter (fun e => e.1 != g) }).advance 256

/-- The first marker of a core that no earlier SEND of it to the channel holds back (R327). -/
def Core.markerReady (c : Core) : Option (Nat × Word) :=
  c.eng.eng.findSome? fun o => match o.kind with
    | .marker x =>
      if c.eng.eng.any fun e => decide (e.id < o.id) && (match e.kind with
        | .send _ _ _ y => routeChan y == routeChan x
        | .marker y => routeChan y == routeChan x
        | _ => false) then none else some (o.id, x)
    | _ => none

/-- MARKER_ARRIVAL (R326, R327): a marker of this package follows its core's sends; one of another package arrives from
outside. -/
def execMarkerArrival (peer chan : Nat) (gen : BitVec 8) (s : State) : Out :=
  let i := chanIdx peer chan
  if s.ownChan i then
    match s.everyCore.findSome? fun n => ((s.coreAt n).markerReady).bind fun e =>
        if routeChan e.2 == i && routeGen e.2 == gen then some (n, e.1) else none with
    | some (n, op) => .next ((s.modCoreAt n fun c => c.dropEng op).countMarker i gen)
    | none => .next s
  else .next (s.countMarker i gen)

/-! ### Binding (R316) -/

/-- Some grants are taken back: their flits, and their RECVs, which stand first again. -/
def Chan.ungrant (c : Chan) (gs : List Grant) : Chan :=
  { c with
    grants := c.grants.filter fun g => !gs.contains g
    granted := gs.foldl (fun n g => if g.direct.isNone then n - g.flits else n) c.granted
    posted := gs.filterMap (·.direct) ++ c.posted }

/-- Grants to another package from the one that matched a RECV on become requests again. -/
def Chan.unadmit (c : Chan) (rv : Nat × Nat) : Chan :=
  let undone := c.inbound.dropWhile fun e => e.2 != some rv
  { c with
    inbound := c.inbound.takeWhile fun e => e.2 != some rv
    asks := undone.map (·.1) ++ c.asks
    granted := undone.foldl (fun n e => if e.2.isNone then n - e.1 else n) c.granted
    posted := undone.filterMap (·.2) ++ c.posted }

/-- An operation leaves a channel end: its request is cancelled, its grant is taken back, and a posted RECV is unposted. Where a
grant had matched the RECV to a SEND that is not accepted, or to one of another package whose message has not arrived, it and the grants
after it become requests again; a message that a SEND of this package has sent for it will be queued (R316, R333, R402, log 24). -/
def Chan.cancel (c : Chan) (ref op : Nat) : Chan :=
  let own := c.ungrant (c.grants.filter fun g => g.core == ref && g.op == op)
  let undone := own.grants.dropWhile fun g => g.direct != some (ref, op)
  let c := (own.ungrant undone).unadmit (ref, op)
  let c : Chan := { c with
    granted := c.wire.foldl (fun n (w : Wire) => if w.direct == some (ref, op) then n + msgFlits w.msg else n) c.granted
    wire := c.wire.map fun w : Wire => if w.direct == some (ref, op) then { w with direct := none } else w }
  { c with
    reqs := (undone.map fun g => (⟨g.core, g.op, g.flits, 0⟩ : CreditReq)) ++ c.reqs.filter fun r => !(r.core == ref && r.op == op)
    posted := c.posted.filter fun e => e != (ref, op) }

/-- An operation leaves the channel structures. -/
def State.cancelOp (s : State) (ref op : Nat) : State :=
  { s with fabric := { s.fabric with chans := s.fabric.chans.map fun c => c.cancel ref op } }

/-- Is a RECV already matched to a message on its way: a SEND of this package that is accepted (R316, R322)? -/
def State.matched (s : State) (ref op : Nat) : Bool :=
  s.fabric.chans.any fun c => c.wire.any fun w => w.direct == some (ref, op)

/-- The channel end that an operation uses. -/
def State.opChan (s : State) (o : EngOp) : Option Nat :=
  match o.kind with
  | .send _ _ _ x | .recv _ x => some (routeChan x)
  | .sendr _ x => some (chanIdx s.regs.domain.toNat (rfield x 0 4))
  | _ => none

/-- CHANNEL_BIND (R316): EN is set; fields are as written, and the end starts empty. No channel of a peer that is no package of the
domain can be bound (R335). -/
def execChannelBind (peer chan : Nat) (v : BitVec 64) (s : State) : Out :=
  let i := chanIdx peer chan
  .next (s.modChan i fun c =>
    let c := if rbit v 62 then { c with generr := false } else c
    if c.en then c
    else { c with en := s.regs.members.getLsbD (i / 16), sources := rfield v 55 7, asid := rfield v 38 9, home := rfield v 30 8, oldest := 0, marks := [],
                  queue := [] })

/-- CHANNEL_UNBIND (R316): EN is cleared; queued messages are discarded, and operations of the end that are not accepted are
refused LINK. -/
def execChannelUnbind (peer chan : Nat) (s : State) : Out :=
  let i := chanIdx peer chan
  if !(s.chan i).en then .next s
  else
    let s := s.modChan i fun c => { c with en := false, queue := [] }
    .next (s.everyCore.foldl (fun s n =>
      let ref := if n < 256 then s.refOf n else n
      ((s.coreAt n).eng.eng.filter fun o => s.opChan o == some i && !o.accepted && !s.matched ref o.id
          && s.asidAt n == some (s.chan i).asid).foldl
        (fun s o => (s.cancelOp ref o.id).modCoreAt n fun c => c.refuse o.id 15) s) s)

/-- A write of CHBIND (R316). -/
def State.chbindWrite (s : State) (v : BitVec 64) : Out :=
  let i := rfield s.regs.chsel 0 8
  let c := s.chan i
  if rbit v 63 then execChannelBind (i / 16) (i % 16) v s
  else
    let s := s.modChan i fun c => if rbit v 62 then { c with generr := false } else c
    if c.en then execChannelUnbind (i / 16) (i % 16) s
    else .next (s.modChan i fun c => { c with sources := rfield v 55 7, asid := rfield v 38 9, home := rfield v 30 8 })

/-- CHBIND as read (Table 17-3). -/
def State.chbind (s : State) : BitVec 64 :=
  let c := s.chan (rfield s.regs.chsel 0 8)
  BitVec.ofNat 64 ((if c.en then 2 ^ 63 else 0) + (if c.generr then 2 ^ 62 else 0) + c.sources * 2 ^ 55
    + c.oldest.toNat * 2 ^ 47 + c.asid * 2 ^ 38 + c.home * 2 ^ 30)

/-! ### In-switch reduction (R329 to R332) -/

/-- The greatest or least of some values of a type, the first of equals; −0 ranks below +0 (R331). -/
def pickBest (ty : ElemTy) (max : Bool) : List Nat → Nat
  | [] => 0
  | a :: rest =>
    let b := pickBest ty max rest
    let va := elemVal ty a
    let vb := elemVal ty b
    let less := fun (x y : FVal) => x.lt y || (x.eqv y && x.neg && !y.neg)
    let ia := intVal .int32 a
    let ib := intVal .int32 b
    if rest.isEmpty then a
    else if ty == .int32 then (if (if max then decide (ia < ib) else decide (ib < ia)) then b else a)
    else if (if max then less va vb else less vb va) then b else a

/-- One element of a result and its flags, from the admitted values; the NaN rule first (R331). -/
def reduceElem (ty : ElemTy) (op : BitVec 2) (vs : List Nat) : Nat × Flags :=
  if ty == .fp32 && vs.any fun v => (FFmt.fp32.decode v).isNan then (0x7FC00000, 0)
  else if op = 2 then
    (if ty == .int32 then satInt .int32 (vs.foldl (fun a v => a + intVal .int32 v) 0)
     else sumRound .fp32 .rne (vs.map fun v => (FFmt.fp32.decode v).mul (FFmt.fp32.decode 0x3F800000)))
  else (pickBest ty (op = 0) vs, 0)

/-- Number of bits set. -/
def popCount (m : BitVec 16) : Nat := ((List.range 16).filter fun i => m.getLsbD i).length

/-- A result trailer (Table 17-9). -/
def trailer (slot : Nat) (gen : BitVec 8) (state arrived missing nansrc count flags : Nat) : List Byte :=
  toLe 2 slot ++ toLe 1 gen.toNat ++ toLe 1 state ++ toLe 2 arrived ++ toLe 2 missing ++ toLe 2 nansrc ++ toLe 1 count
    ++ toLe 1 flags ++ toLe 52 0

/-- A result message sets out for this package's own channel (R332); its time is free, but it arrives behind those that have set out on the
channel before it (R315, R329, log 3). -/
def State.sendResult (s : State) (c : Contribution) (gen : BitVec 8) (payload : List Byte) : State :=
  if c.pkg != s.regs.domain then s
  else
    let r := s.choose 1000000
    let m : Message := { kind := .result, ty := c.ty, count := c.elems.length, gen := gen, sender := s.regs.domain, payload := payload }
    let i := chanIdx s.regs.domain.toNat c.chan.toNat
    let t := s.fabric.switch.foldl (fun t e => match e with
      | .result k _ u => if k = i then Nat.max t u else t
      | _ => t) (s.tick + r.1)
    { r.2 with fabric := { r.2.fabric with switch := r.2.fabric.switch ++ [.result i m t] } }

/-- The release of an instance (R332). -/
def State.release (s : State) (slot : Nat) (inst : RedInst) (timeout : Bool) : State :=
  let vals := (List.range inst.n).map fun i =>
    reduceElem inst.ty inst.op (inst.contribs.map fun c => (c.elems.getD i 0).toNat)
  let nan := inst.contribs.foldl (fun m c =>
    if inst.ty == .fp32 && c.elems.any fun v => (FFmt.fp32.decode v.toNat).isNan then m ||| (1#16 <<< c.pkg.toNat) else m) 0#16
  let st := (if nan != 0 then 1 else 0) + (if timeout && inst.arrived != inst.mask then 2 else 0)
  let p := (vals.flatMap fun v => toLe 4 v.1) ++ trailer slot inst.gen st inst.arrived.toNat
    (inst.mask &&& ~~~inst.arrived).toNat nan.toNat (popCount inst.mask) (flagsAll (vals.map (·.2))).toNat
  let s := { s with fabric := { s.fabric with
    slots := s.fabric.slots.setIfInBounds slot { lastGen := some inst.gen, inst := none } } }
  inst.contribs.foldl (fun s c => s.sendResult c inst.gen p) s

/-- A slot. -/
def State.redSlot (s : State) (slot : Nat) : RedSlot := s.fabric.slots.getD slot {}

/-- CAUSE of the refusal of a contribution, 0 when it is admitted (R330, Table 17-9). -/
def RedSlot.cause (sl : RedSlot) (c : Contribution) : Nat :=
  if !c.mask.getLsbD c.pkg.toNat then 4
  else match sl.inst with
    | none => if sl.lastGen == some c.gen then 1 else 0
    | some i =>
      if c.gen != i.gen then 2
      else if c.op != i.op || c.ty != i.ty || c.elems.length != i.n || c.mask != i.mask then 5
      else if i.arrived.getLsbD c.pkg.toNat then 3
      else 0

/-- The instance of a slot is released by its timeout, where that falls before tick `t` (R332). -/
def State.expire (s : State) (slot t : Nat) : State :=
  match (s.redSlot slot).inst with
  | some i => match i.deadline with
    | some d => if d < t then s.release slot i true else s
    | none => s
  | none => s

/-- A contribution that reached its slot's switch at a tick is served (R330), behind a timeout that fell before it (R332). -/
def State.serve (s : State) (slot : Nat) (c : Contribution) (from? : Option (Nat × Nat)) (t : Nat) : State :=
  let s := s.expire slot t
  let sl := s.redSlot slot
  let why := sl.cause c
  let s := match from? with
    | some (core, op) =>
      let r := s.choose 1000000
      { r.2 with fabric := { r.2.fabric with
        switch := r.2.fabric.switch ++ [SwitchMsg.answer core op (why == 0) (s.tick + r.1)] } }
    | none => s
  if why != 0 then
    s.sendResult c c.gen ((c.elems.flatMap fun _ => toLe 4 0) ++ trailer slot c.gen (4 + why * 16) 0 0 0 (popCount c.mask) 0)
  else
    let i : RedInst := match sl.inst with
      | some i => i
      | none => { gen := c.gen, op := c.op, ty := c.ty, n := c.elems.length, mask := c.mask, arrived := 0, contribs := [],
                  deadline := if c.timeout = 0 then none else some (t + c.timeout) }
    let i := { i with arrived := i.arrived ||| (1#16 <<< c.pkg.toNat), contribs := i.contribs ++ [c] }
    if i.arrived == i.mask then s.release slot i false
    else { s with fabric := { s.fabric with slots := s.fabric.slots.setIfInBounds slot { sl with inst := some i } } }

/-- The contributions that have reached a slot in a tick that has passed, in the order in which they are served: by their ticks, and
those of one tick by domain number (R330, R334). -/
def State.arrivedAt (s : State) (slot : Nat) : List SwitchMsg :=
  let place := fun e : SwitchMsg => match e with
    | .contribution _ _ _ c t => 16 * t + c.pkg.toNat
    | _ => 0
  sortBy place (s.fabric.switch.filter fun e => match e with
    | .contribution _ _ sl _ t => sl == slot && decide (t < s.tick)
    | _ => false)

/-- A contribution is served; one of this package is answered. -/
def State.serveOne (s : State) : SwitchMsg → State
  | .contribution core op sl d t =>
    ({ s with fabric := { s.fabric with switch := s.fabric.switch.erase (SwitchMsg.contribution core op sl d t) } }).serve sl d
      (if d.pkg == s.regs.domain then some (core, op) else none) t
  | _ => s

/-- What has reached a slot before this tick is served, and then its timeout is carried out, if that fell before this tick (R330, R332,
R334). -/
def State.settleSlot (s : State) (slot : Nat) : State :=
  ((s.arrivedAt slot).foldl State.serveOne s).expire slot s.tick

/-- CONTRIBUTION_ARRIVAL (R330, R334): a contribution of another package reaches its slot; or the contributions that have reached the
slot are served, this package's among them. Of those of one tick the lower domain number is served first, so they are served when that
tick has passed. -/
def execContributionArrival (slot : Nat) (c : Contribution) (s : State) : Out :=
  if c.pkg != s.regs.domain then
    .next { s with fabric := { s.fabric with switch := s.fabric.switch ++ [.contribution 0 0 (slot % 1024) c s.tick] } }
  else .next (s.settleSlot slot)

/-- REDUCTION_TIMEOUT (R332): once the contributions of its tick have been served. -/
def execReductionTimeout (slot : Nat) (s : State) : Out := .next (s.settleSlot slot)

/-- SENDR_ANSWER (R330): the token becomes complete, or refused LINK. -/
def execSendrAnswer (core op : Nat) (s : State) : Out :=
  let hit := fun e : SwitchMsg => match e with
    | .answer c o _ t => c == core && o == op && decide (t ≤ s.tick)
    | _ => false
  match s.fabric.switch.find? hit with
  | some (.answer _ _ ok t) =>
    let s := { s with fabric := { s.fabric with switch := s.fabric.switch.erase (SwitchMsg.answer core op ok t) } }
    .next (s.modCoreAt core fun c => if ok then (c.promise op s.tick).complete op s.tick 0 else c.refuse op 15)
  | _ => .next s

/-- FABRIC_RESET (R330): LASTGEN of every slot matches no generation, and no instance lives. -/
def execFabricReset (s : State) : Out :=
  .next { s with fabric := { s.fabric with slots := Vector.replicate 1024 {} } }

end Sys2Proof.Machine
end

