-- ==== Sys2Proof/Machine/Hash.lean ====
section
/-!
DEFINITION. SHAKE256 and the verification of ML-DSA-65 signatures, which R21, R46, R59 and R60 name. They are the standard
functions of FIPS 202 and FIPS 204 (log 10).
-/
namespace Sys2Proof.Machine

/-! ### Keccak and SHAKE (FIPS 202) -/

/-- A lane. -/
abbrev Lane := BitVec 64

/-- The lanes a walk from (1, 0) visits, (x, y) going to (y, 2x + 3y), each with the turn its visit gives, `t` turns from `k`
on: the turn of visit k is the k-th triangle number. Lane (x, y) is number x + 5y. -/
def laneTurns : Nat → Nat → Nat × Nat → List (Nat × Nat)
  | 0, _, _ => []
  | t + 1, k, (x, y) => (x + 5 * y, k * (k + 1) / 2 % 64) :: laneTurns t (k + 1) (y, (2 * x + 3 * y) % 5)

/-- The turn of lane `i`; lane 0, which the walk never visits, is not turned. -/
def laneTurn (i : Nat) : Nat := ((laneTurns 24 1 (1, 0)).lookup i).getD 0

/-- The register of the round constants moved on: a shift under x^8 + x^6 + x^5 + x^4 + 1. -/
def roundLfsr (r : Nat) : Nat := if r < 128 then 2 * r else (2 * r) ^^^ 369

/-- The constants of `n` rounds from register `r` on: its next seven output bits go to bits 2^j - 1. -/
def roundKeys : Nat → Nat → List Lane
  | 0, _ => []
  | n + 1, r =>
    let seven := (List.range 7).foldl (fun (e : Nat × Nat) j => (e.1 + e.2 % 2 * 2 ^ (2 ^ j - 1), roundLfsr e.2)) (0, r)
    BitVec.ofNat 64 seven.1 :: roundKeys n seven.2

/-- The parity of column `x`. -/
def columnParity (lanes : List Lane) (x : Nat) : Lane :=
  lanes.getD (x % 5) 0 ^^^ lanes.getD (x % 5 + 5) 0 ^^^ lanes.getD (x % 5 + 10) 0 ^^^ lanes.getD (x % 5 + 15) 0
    ^^^ lanes.getD (x % 5 + 20) 0

/-- One round on 25 lanes: each takes the parities of the columns beside it and is turned, the turned lane (x + 3y, x) moves to
(x, y), each takes the two that follow it in its row, and lane 0 the round constant. -/
def keccakRound (lanes : List Lane) (rc : Lane) : List Lane :=
  let turned := lanes.mapIdx fun i l =>
    (l ^^^ columnParity lanes (i + 4) ^^^ (columnParity lanes (i + 1)).rotateLeft 1).rotateLeft (laneTurn i)
  let moved : Nat → Nat → Lane := fun x y => turned.getD ((x + 3 * y) % 5 + 5 * (x % 5)) 0
  (List.range 25).map fun i =>
    let (x, y) := (i % 5, i / 5)
    moved x y ^^^ (moved (x + 2) y &&& ~~~ moved (x + 1) y) ^^^ (if i = 0 then rc else 0)

/-- Keccak-f[1600]. -/
def keccakF (a : List Lane) : List Lane := (roundKeys 24 1).foldl keccakRound a

/-- The padding of SHAKE to a multiple of `rate` bytes. -/
def shakePad (rate : Nat) (m : List Byte) : List Byte :=
  let n := rate - m.length % rate
  m ++ (if n = 1 then [0x9F] else 0x1F :: (List.replicate (n - 2) 0 ++ [0x80]))

/-- A block absorbed. -/
def absorb (a : List Lane) (block : List Byte) : List Lane :=
  keccakF (a.mapIdx fun i l => l ^^^ BitVec.ofNat 64 (leNat ((block.drop (8 * i)).take 8)))

/-- `n` blocks of output. -/
def squeeze (rate : Nat) : Nat → List Lane → List Byte
  | 0, _ => []
  | n + 1, a => (a.flatMap fun l => toLe 8 l.toNat).take rate ++ squeeze rate n (keccakF a)

/-- `n` bytes of SHAKE output for a rate: 168 for SHAKE128, 136 for SHAKE256. -/
def shake (rate : Nat) (m : List Byte) (n : Nat) : List Byte :=
  let p := shakePad rate m
  let a := (List.range (p.length / rate)).foldl (fun a i => absorb a ((p.drop (rate * i)).take rate)) (List.replicate 25 0)
  (squeeze rate ((n + rate - 1) / rate) a).take n

/-- SHAKE256, `n` bytes. -/
def shake256 (m : List Byte) (n : Nat) : List Byte := shake 136 m n

/-- The digest of R46: 64 bytes of SHAKE256, byte 0 in bits[7:0]. -/
def digestOf (m : List Byte) : BitVec 512 := BitVec.ofNat 512 (leNat (shake256 m 64))

/-! ### Verification of ML-DSA-65 (FIPS 204) -/

/-- The modulus. -/
def dsaQ : Nat := 8380417
/-- gamma1. -/
def dsaG1 : Nat := 524288
/-- gamma2. -/
def dsaG2 : Nat := 261888

/-- `b^e` modulo q. -/
def powQ (b : Nat) : Nat → Nat
  | 0 => 1
  | e + 1 => powQ b e * b % dsaQ

/-- The bits of a byte reversed. -/
def rev8 (k : Nat) : Nat := (List.range 8).foldl (fun v i => v + k / 2 ^ i % 2 * 2 ^ (7 - i)) 0

/-- zeta_k. -/
def dsaZetas : List Nat := (List.range 256).map fun k => powQ 1753 (rev8 k)

/-- One layer of the transform. -/
def nttLayer (w : List Nat) (len : Nat) : List Nat :=
  w.mapIdx fun j v =>
    let z := dsaZetas.getD (128 / len + j / (2 * len)) 0
    if j % (2 * len) < len then (v + z * w.getD (j + len) 0) % dsaQ
    else (w.getD (j - len) 0 + dsaQ - z * v % dsaQ) % dsaQ

/-- NTT. -/
def ntt (w : List Nat) : List Nat := [128, 64, 32, 16, 8, 4, 2, 1].foldl nttLayer w

/-- One layer of the inverse transform. -/
def inttLayer (w : List Nat) (len : Nat) : List Nat :=
  w.mapIdx fun j v =>
    let z := dsaQ - dsaZetas.getD (256 / len - 1 - j / (2 * len)) 0
    if j % (2 * len) < len then (v + w.getD (j + len) 0) % dsaQ
    else z * (w.getD (j - len) 0 + dsaQ - v) % dsaQ

/-- Inverse NTT. -/
def intt (w : List Nat) : List Nat :=
  ([1, 2, 4, 8, 16, 32, 64, 128].foldl inttLayer w).map fun v => v * 8347681 % dsaQ

/-- `n` fields of `w` bits, little-endian. -/
def unpackBits (w n : Nat) (bs : List Byte) : List Nat :=
  let v := leNat bs
  (List.range n).map fun i => v / 2 ^ (w * i) % 2 ^ w

/-- A polynomial of the matrix, from its seed: candidates of three bytes below q, in order. -/
def rejPoly (seed : List Byte) : List Nat :=
  let s := shake 168 seed 1344
  let c := (List.range 448).map fun i => leNat ((s.drop (3 * i)).take 3) % 2 ^ 23
  (c.filter fun v => decide (v < dsaQ)).take 256

/-- SampleInBall: 49 coefficients of 1 or -1. -/
def sampleBall (seed : List Byte) : List Nat :=
  let s := shake256 seed 1088
  let signs := leNat (s.take 8)
  let r := (List.range 49).foldl (fun (acc : List Nat × List Byte) t =>
    let i := 207 + t
    let rest := acc.2.dropWhile fun b => decide (b.toNat > i)
    let j := (rest.headD 0).toNat
    let c := acc.1.set i (acc.1.getD j 0)
    (c.set j (if signs / 2 ^ t % 2 = 1 then dsaQ - 1 else 1), rest.drop 1)) (List.replicate 256 0, s.drop 8)
  r.1

/-- The hint of a signature: for each of six polynomials the coefficients it marks, or none where it is ill-formed. -/
def unpackHint (y : List Byte) : Option (List (List Nat)) :=
  let at' := fun i => (y.getD i 0).toNat
  let go := (List.range 6).foldl (fun (acc : Option (List (List Nat) × Nat)) i => acc.bind fun a =>
    let e := at' (55 + i)
    if e < a.2 || e > 55 then none
    else
      let js := (List.range (e - a.2)).map fun k => at' (a.2 + k)
      if (js.zip (js.drop 1)).all fun p => decide (p.1 < p.2) then some (a.1 ++ [js], e) else none) (some ([], 0))
  go.bind fun a => if (List.range 55).all fun i => decide (i < a.2) || at' i == 0 then some a.1 else none

/-- UseHint on one coefficient: the high bits of r, corrected where the hint is set. -/
def useHint (h : Bool) (r : Nat) : Nat :=
  let r0 := r % (2 * dsaG2)
  let up := decide (r0 > dsaG2)
  let r1 := (if up then r - r0 + 2 * dsaG2 else r - r0)
  let top := r1 = dsaQ - 1
  let hi := if top then 0 else r1 / (2 * dsaG2)
  let pos := !up && r0 != 0 && !top
  if h then (if pos then (hi + 1) % 16 else (hi + 15) % 16) else hi

/-- Sum of polynomials. -/
def polySum (ps : List (List Nat)) : List Nat :=
  ps.foldl (fun a p => (a.zip p).map fun e => (e.1 + e.2) % dsaQ) (List.replicate 256 0)
/-- Product of transforms. -/
def polyMul (a b : List Nat) : List Nat := (a.zip b).map fun e => e.1 * e.2 % dsaQ

/-- Does an ML-DSA-65 signature verify over a framed message under a public key? -/
def mlDsaVerify (pk m sig : List Byte) : Bool :=
  let ct := sig.take 48
  let z := (List.range 5).map fun i => unpackBits 20 256 ((sig.drop (48 + 640 * i)).take 640)
  match unpackHint (sig.drop 3248) with
  | none => false
  | some h =>
    let mu := shake256 (shake256 pk 64 ++ m) 64
    let c := ntt (sampleBall ct)
    let zh := z.map fun p => ntt (p.map fun v => (dsaG1 + dsaQ - v) % dsaQ)
    let w1 := (List.range 6).map fun i =>
      let az := polySum ((List.range 5).map fun j =>
        polyMul (rejPoly (pk.take 32 ++ [BitVec.ofNat 8 j, BitVec.ofNat 8 i])) (zh.getD j []))
      let t1 := unpackBits 10 256 ((pk.drop (32 + 320 * i)).take 320)
      let ct1 := polyMul c (ntt (t1.map fun v => v * 8192 % dsaQ))
      let w := intt ((az.zip ct1).map fun e => (e.1 + dsaQ - e.2) % dsaQ)
      w.mapIdx fun n r => useHint ((h.getD i []).contains n) r
    let packed := w1.flatMap fun p => toLe 128 ((p.zipIdx.map fun e => e.1 * 16 ^ e.2).sum)
    pk.length == 1952 && sig.length == 3309 &&
      z.all (fun p => p.all fun v => decide ((dsaG1 - v) + (v - dsaG1) < dsaG1 - 196)) &&
      shake256 (mu ++ packed) 48 == ct

end Sys2Proof.Machine
end

