-- ==== Sys2Proof/Machine/Host.lean ====
section
/-!
DEFINITION. The host's side (R19, R45 to R70): launch queues and their commands, contexts, images and launches, and the steps
PACKAGE_RESET, HOST_LINK_TRAINING, DOORBELL, LQCFG_WRITE, the commands but for PIPE_BIND, and KLAUNCH_ACCEPT. The firmware
serves a command in one step, at a free tick (log 3).
-/
namespace Sys2Proof.Machine

/-! ### Launch queues (R61, R62) -/

/-- Launch queue `q`. -/
def State.lq (s : State) (q : Nat) : LaunchQ := s.host.lqs.getD q {}
/-- Launch queue `q` changed. -/
def State.modLq (s : State) (q : Nat) (f : LaunchQ → LaunchQ) : State :=
  { s with host := { s.host with lqs := s.host.lqs.setIfInBounds q (f (s.lq q)) } }

/-- Has the queue a command to be served? -/
def LaunchQ.served (l : LaunchQ) : Bool := l.en && !l.err && !l.blocked && l.head != l.tail

/-- Does the firmware serve a command of the queue: it runs, and the queue has one (R21, R62)? -/
def State.serves (s : State) (q : Nat) : Bool := s.host.firmware && (s.lq q).served

/-- The tick of the next service is chosen when a command can be served (log 3). -/
def State.arm (s : State) (q : Nat) : State :=
  let l := s.lq q
  if !s.serves q then s.modLq q fun l => { l with serveAt := none }
  else if l.serveAt.isSome then s
  else { s.modLq q fun l => { l with serveAt := some (s.tick + Config.choice s.fresh) } with fresh := s.fresh + 1 }

/-- The errors of R62: a TAIL out of range, or EN with an invalid LOG2N. -/
def LaunchQ.check (l : LaunchQ) : LaunchQ :=
  if decide ((l.tail - l.head).toNat > 2 ^ l.log2n) || (l.en && !(decide (4 ≤ l.log2n) && decide (l.log2n ≤ 16))) then
    { l with err := true }
  else l

/-- The intermediate address of a slot. -/
def LaunchQ.slotIa (l : LaunchQ) (i : BitVec 32) : Nat := l.base.toNat + 64 * (i.toNat % 2 ^ l.log2n)

/-- The slots from TAIL up to a new TAIL, as they stand now, are kept beside those seen before (R62). -/
def State.seeSlots (s : State) (q : Nat) (tail : BitVec 32) : State :=
  let l := s.lq q
  let n := (tail - l.tail).toNat
  if n ≤ 2 ^ l.log2n then
    let new := (List.range n).map fun i =>
      let a := l.slotIa (l.tail + BitVec.ofNat 32 i)
      (a, s.sideBytes .mem a 64)
    s.modLq q fun l => { l with seen := new ++ l.seen.filter fun e => !new.any fun n => n.1 == e.1 }
  else s

/-- DOORBELL (R62): a write of LQTAIL. -/
def execDoorbell (q : Nat) (v : BitVec 64) (s : State) : Out :=
  .next (((s.seeSlots q (v.truncate 32)).modLq q fun l => { l with tail := v.truncate 32 }.check).arm q)

/-- LQCFG_WRITE (R62). -/
def execLqcfgWrite (q : Nat) (v : BitVec 64) (s : State) : Out :=
  .next ((s.modLq q fun l =>
    { l with err := l.err && !rbit v 9, en := rbit v 8, log2n := rfield v 0 5 }.check).arm q)

/-- LQCFG as read (Table 4-3). -/
def LaunchQ.cfg (l : LaunchQ) : BitVec 64 :=
  BitVec.ofNat 64 ((if l.err then 512 else 0) + (if l.en then 256 else 0) + l.log2n)

/-- The boot ROM's check of the firmware (R21). -/
def bootCheck (fw sig : List Byte) : Bool := mlDsaVerify Config.bootKey (Config.signFrame ++ shake256 fw 64) sig

/-- PACKAGE_RESET (R4, R21, R314): time zero, and the reset state; what is to come from outside stays. The boot ROM checks the
firmware's signature; firmware that runs sets the domain number. What the reset finds is free (log 4). -/
def execPackageReset (s : State) : Out :=
  let b := Config.boot s.fresh
  let ok := bootCheck b.fw b.sig
  let d := if ok then b.dom else 0
  .next { State.reset with
    agenda := s.agenda, fresh := s.fresh + 1,
    regs := { State.reset.regs with domain := d, members := (if ok then b.members else 0) ||| (1#16 <<< d.toNat) },
    host := { State.reset.host with firmware := ok, fwDigest := digestOf b.fw } }

/-- HOST_LINK_TRAINING (R19): the link runs at the highest width and speed that both ends support: this end supports ×16 and
the seventh generation, and the other `width` and `speed`. With none in common the link is down. -/
def execHostLinkTraining (link width speed : Nat) (s : State) : Out :=
  let got := if width = 0 ∨ speed = 0 then (0, 0) else (Nat.min 16 width, Nat.min 7 speed)
  .next { s with host := { s.host with links := s.host.links.setIfInBounds link got } }

/-! ### Commands and completions (R63, R64) -/

/-- The command at HEAD: each byte as it stands, or, where its slot has been written since a doorbell covered it, as it stood
then (R62); which of the two is free (log 3). -/
def State.command (s : State) (q : Nat) : List Byte :=
  let l := s.lq q
  let a := l.slotIa l.head
  let now := s.sideBytes .mem a 64
  match l.seen.find? fun e => e.1 == a with
  | some e => (now.zip e.2).mapIdx fun i b =>
      if b.1 = b.2 then b.1 else if Config.choiceAt 7 (l.head.toNat * 64 + q) i % 2 = 0 then b.1 else b.2
  | none => now

/-- `n` bytes of a command or another table from `off`, little-endian. -/
def fieldAt (bs : List Byte) (off n : Nat) : Nat := leNat ((bs.drop off).take n)

/-- The slot at HEAD is read, by the part itself (R274). -/
def State.readSlot (s : State) (q : Nat) : State := s.partLines ((s.lq q).slotIa (s.lq q).head) 64 none

/-- The tick at which the last of the pages of some lines that are being retired is in place (R394). -/
def State.retiredBy (s : State) (lines : List Nat) : Nat :=
  lines.foldl (fun t ln => match s.dramLine ln false with
    | some d => Nat.max t (s.retireTill d)
    | none => t) 0

/-- The command at HEAD completes (R64): the record, where its address is
mapped for writing (log 27), then HEAD, then MSI-X vector q on both host links. A record whose page is being retired waits (R394). -/
def State.finish (s : State) (q : Nat) (bs : List Byte) (status result : Nat) : State :=
  let l := s.lq q
  let cpl := fieldAt bs 8 8
  if cpl ≠ 0 && s.linesRetiring [cpl / 128] then
    s.modLq q fun l => { l with blocked := false, late := some (bs, status, result), serveAt := some (s.retiredBy [cpl / 128]) }
  else
  let dw0 := status + fieldAt bs 0 1 * 2 ^ 16 + l.head.toNat * 2 ^ 32
  let s := if cpl = 0 then s else s.partPut cpl s.fwOwner (toLe 8 dw0 ++ toLe 8 (if status = 0 then result else 0))
  let s := s.modLq q fun l => { l with head := l.head + 1, blocked := false, serveAt := none, late := none,
                                       seen := l.seen.filter fun e => e.1 != l.slotIa l.head }
  (if fieldAt bs 1 1 ≥ 128 then s.msix q else s).arm q

/-- A status and a result, with the state the command leaves. -/
abbrev Reply := Nat × Nat × State
/-- What serving a command gives: its reply, or a state in which the reply is still to come. -/
abbrev Served := Reply ⊕ State

/-- Status codes (Table 4-8). -/
def badCommand : Nat := 16
/-- Status codes (Table 4-8). -/
def noContext : Nat := 17
/-- Status codes (Table 4-8). -/
def badArgs : Nat := 25

/-- A command waits where its slot, or bytes of memory that it takes or gives, are being retired (R394): it is served once they are in
place. -/
def State.serveWait (s : State) (q : Nat) (runs : List (Nat × Nat)) (go : State → Out) : Out :=
  let lines := linesOf (((s.lq q).slotIa (s.lq q).head, 64) :: runs)
  if s.linesRetiring lines then .next (s.modLq q fun l => { l with serveAt := some (s.retiredBy lines) })
  else match (s.lq q).late with
  | some e => .next (s.finish q e.1 e.2.1 e.2.2)
  | none => go s

/-- A command served: where the one at HEAD has code `op`, its header is checked, and its answer completes it unless the
answer is to come later. `flags` are the FLAGS bits that `op` defines, `reads` the bytes of memory that it reads and `writes` those that it
writes. The slot is read first, which finds the errors of its line; a lost slot reads as zeros (R389, R390), which is another command. A
command that fails changes only its record. -/
def serveForm (op flags : Nat) (run : List Byte → State → Served) (q : Nat) (s : State)
    (reads : List Byte → State → List (Nat × Nat) := fun _ _ => [])
    (writes : List Byte → State → List (Nat × Nat) := fun _ _ => []) : Out :=
  let bs := s.command q
  if !s.serves q || fieldAt bs 0 1 != op then .next s
  else s.serveWait q (reads bs s ++ writes bs s) fun s =>
    let s := s.readSlot q
    let bs := s.command q
    if fieldAt bs 0 1 != op then .next s
    else
    let bad := decide (fieldAt bs 3 1 ≠ 0) || decide (fieldAt bs 1 1 % 128 &&& (127 - flags) ≠ 0) ||
      (op != 1 && op != 5 && decide (fieldAt bs 2 1 ≠ 0))
    if bad then .next (s.finish q bs badCommand 0)
    else if fieldAt bs 8 8 % 16 ≠ 0 then .next (s.finish q bs badArgs 0)
    else
      let s := (reads bs s).foldl (fun (s : State) r => s.partLines r.1 r.2 none) s
      match run bs s with
      | .inl (0, v, s') => .next (s'.finish q bs 0 v)
      | .inl (st, _, _) => .next (s.finish q bs st 0)
      | .inr s' => .next s'

/-- A command that acts in a live context, which its CTX field names (R65). -/
def inContext (run : Nat → List Byte → State → Served) (bs : List Byte) (s : State) : Served :=
  match s.liveCtx (fieldAt bs 4 4) with
  | some a => run a bs s
  | none => .inl (noContext, 0, s)

/-- NOP_COMMAND (R63): its CTX must name a live context, as it is not among the commands that ignore it (Table 4-6). -/
def execNopCommand (q : Nat) (s : State) : Out := serveForm 0 0 (inContext fun _ _ s => .inl (0, 0, s)) q s

/-- RESERVED_COMMAND (R63): OP 8 to 255. -/
def execReservedCommand (q : Nat) (s : State) : Out :=
  if s.serves q && decide (fieldAt (s.command q) 0 1 ≥ 8) then
    s.serveWait q [] fun s =>
      let s := s.readSlot q
      if fieldAt (s.command q) 0 1 < 8 then .next s else .next (s.finish q (s.command q) badCommand 0)
  else .next s

/-- Are all pages of a range of intermediate addresses mapped? -/
def State.covered (s : State) (ia n : Nat) (write : Bool) : Bool :=
  decide (ia + n ≤ 2 ^ 52) && (pagesOf ia n).all fun p => (s.iaLoc (Nat.max ia (p * 65536)) write).isSome

/-! ### Contexts (R65 to R67) -/

/-- A range register image (Table 14-2): the window, and whether its reserved bits are zero. -/
def rangeImage (bs : List Byte) (i : Nat) : Range × Bool :=
  let f := fun k => fieldAt bs (32 * i + 8 * k) 8
  let perm := f 3
  (⟨f 0, f 1, f 2, perm % 2 = 1, perm / 2 % 2 = 1, perm / 4 % 2 = 1⟩,
   f 0 % 65536 == 0 && f 1 % 65536 == 0 && f 2 % 65536 == 0 && decide (f 2 < 2 ^ 52) && decide (perm < 8))

/-- Do two ranges of addresses meet? -/
def rangesMeet (a b c d : Nat) : Bool := decide (a < d) && decide (c < b)

/-- May a window be loaded (R264)? -/
def Range.ok (w : Range) : Bool :=
  decide (w.vbase < w.vend) && decide (w.iabase + (w.vend - w.vbase) ≤ 2 ^ 52) &&
  !rangesMeet w.vbase w.vend tableBase (tableBase + 16384) && !rangesMeet w.vbase w.vend codeBase (codeBase + 0x1000000)

/-- Is the image set good (R264)? Windows with V clear are ignored. -/
def rangesOk (rs : List (Range × Bool)) : Bool :=
  let vs := rs.filter fun r => r.1.v
  vs.all (fun r => r.2 && r.1.ok) &&
    vs.zipIdx.all fun a => vs.zipIdx.all fun b => a.2 == b.2 || !rangesMeet a.1.1.vbase a.1.1.vend b.1.1.vbase b.1.1.vend

/-- The local pages of a range of intermediate addresses. -/
def State.localPages (s : State) (ia n : Nat) : List Nat :=
  (pagesOf ia n).filterMap fun p => if s.iaLocal (p * 65536) then some (p % 2 ^ 23) else none

/-- Pages pinned, or unpinned, once each (R266). -/
def State.pinPages (s : State) (ps : List Nat) (up : Bool) : State :=
  ps.foldl (fun s p =>
    let w := s.mapWord1 p
    s.setMapWord1 p (w / 65536 * 65536 + (if up then (w % 65536 + 1) % 65536 else w % 65536 - 1))) s

/-- Bytes of one core's save record (R66). -/
def recordBytes : Nat := 2320 * 1024

/-- CTX_CREATE's steps (R66); the ASID is the firmware's choice (log 3). -/
def State.createCtx (s : State) (bs : List Byte) : Reply :=
  let f := fun off n => fieldAt bs off n
  let bodyZero := f 0x39 1 == 0 && f 0x3C 4 == 0
  let rangeIa := f 0x10 8
  let saveIa := f 0x18 8
  let saveLen := f 0x20 8
  let acctIa := f 0x28 8
  let wdog := f 0x30 8
  let maxRods := f 0x38 1
  let quota := f 0x3A 2
  let free := (List.range 512).filter fun a => (s.ctx a).free
  let images := s.sideBytes .mem rangeIa 512
  let rs := (List.range 16).map (rangeImage images)
  let pages := s.localPages saveIa saveLen
  if !bodyZero then (badCommand, 0, s)
  else if free.isEmpty then (18, 0, s)
  else if f 2 1 > 7 || maxRods < 1 || maxRods > 64 || !s.covered rangeIa 512 false || !rangesOk rs then (badArgs, 0, s)
  else if saveLen < maxRods * 4 * recordBytes || !s.covered saveIa saveLen true
      || pages.any (fun p => s.mapWord1 p % 65536 == 65535) then (23, 0, s)
  else if acctIa % 64 ≠ 0 || !s.covered acctIa 256 true || wdog < 1 || wdog ≥ 2 ^ 48 then (badArgs, 0, s)
  else if (s.work.ctxs.toList.filter fun c => !c.free).foldl (fun n c => n + c.pqQuota) quota > 65536 then (27, 0, s)
  else
    let r := s.choose free.length
    let a := free.getD r.1 0
    let s := (r.2.pinPages pages true).partPut acctIa s.fwOwner (List.replicate 256 0)
    let gen := ((s.ctx a).gen + 1) % 2 ^ 23
    let c : Ctx :=
      { gen := gen, live := true, free := false, ranges := Vector.ofFn fun i => (rangeImage images i.val).1,
        saveIa := saveIa, saveLen := saveLen,
        acctIa := acctIa, wdog := wdog, maxRods := maxRods, pqQuota := quota, prioMax := f 2 1 }
    let s := s.modCtx a fun _ => c
    let s := s.modStatus a fun _ => { ctxst0 := BitVec.ofNat 64 (s.ctxNum a) }
    (0, s.ctxNum a, s)

/-- CTX_CREATE (R66). -/
def execCtxCreate (q : Nat) (s : State) : Out :=
  serveForm 1 0 (fun bs s => .inl (s.createCtx bs)) q s (fun bs _ => [(fieldAt bs 0x10 8, 512)]) fun bs _ => [(fieldAt bs 0x28 8, 256)]

/-- Kernels of a context that have not retired. -/
def State.kernelsOf (s : State) (asid : Nat) : List Kernel := s.work.kernels.filter fun k => k.asid == asid

/-- A CTX_DESTROY that waits for the end of a context completes once every kernel of it has retired (R67). -/
def State.destroyDone (s : State) (asid : Nat) : State :=
  match (s.ctx asid).destroyQ with
  | some (q, bs) =>
    if (s.kernelsOf asid).isEmpty then (s.modCtx asid fun c => { c with destroyQ := none }).finish q bs 0 0
    else s
  | none => s

/-- CTX_DESTROY (R67): the context ends; the command completes once its kernels have retired. -/
def execCtxDestroy (q : Nat) (s : State) : Out :=
  serveForm 2 1 (inContext fun a bs s =>
    if fieldAt bs 1 1 % 2 = 0 && !(s.kernelsOf a).isEmpty then .inl (24, 0, s)
    else
      let s := s.modLq q fun l => { l with blocked := true, serveAt := none }
      let s := s.modCtx a fun c => { c with destroyQ := some (q, bs) }
      .inr ((s.endContext a 0 0 0 0 0).destroyDone a)) q s

/-! ### Images (R45 to R49) -/

/-- Is a last of an image good (R51, R52)? -/
def Last.imageOk (l : Last) : Bool :=
  let rank := l.rank
  let w := l.width
  let str8 := fun k => if k = 0 then w else 8 * l.str k
  l.fmt.isSome && decide (rank ≤ 4) && decide (l.space ≠ 3) && decide (l.fld 0 20 44 = 0) && decide (l.fld 4 32 32 = 0)
  && (l.space == 2 || l.slice == 0) && (!l.replay || l.src)
  && (List.range 4).all (fun k => decide (l.ext k ≥ 1) && (decide (k < rank) || decide (l.ext k = 1)))
  && [1, 2, 3].all (fun k => decide (k < rank) || decide (l.str k = 0))
  && [1, 2, 3].all (fun k => decide (k ≥ rank) || (decide (str8 k % w = 0) && decide (str8 k ≥ l.ext (k - 1) * str8 (k - 1))))
  && (if isDbTy l.ty then decide (l.ext 0 % 32 = 0) && decide (l.scale ≠ 0) else decide (l.scale = 0))

/-- LASTCNT. -/
def Image.lastCnt (i : Image) : Nat := i.le 0x14 2
/-- Entry `n` of the last section: its index doubleword and its last. -/
def Image.lastEntry (i : Image) (n : Nat) : Nat × Last :=
  let o := i.le 0x10 4 + 72 * n
  (i.le o 8, BitVec.ofNat 512 (i.le (o + 8) 64))
/-- The entries of the last section. -/
def Image.lastEntries (i : Image) : List (Nat × Last) := (List.range i.lastCnt).map i.lastEntry
/-- DATAOFF and DATASIZE. -/
def Image.dataSize (i : Image) : Nat := i.le 0x24 4
/-- The initial data. -/
def Image.data (i : Image) : List Byte := (i.bytes.drop (i.le 0x20 4)).take i.dataSize
/-- MINRODS. -/
def Image.minRods (i : Image) : Nat := i.le 0x2B 1
/-- L1 share in KiB (Table 3-1). -/
def Image.l1Kb (i : Image) : Nat := 1024 + 512 * i.le 0x2A 1
/-- Scratchpad bytes of the kernel's cores (R242). -/
def Image.spadBytes (i : Image) : Nat := (3072 - i.l1Kb) * 1024

/-- Is the header good (R45, Table 3-1)? Of a section with no bytes the model checks that its offset is a multiple of 64, and
nothing else (log 15). -/
def Image.headerOk (i : Image) : Bool :=
  let h := i.le
  let kind := h 0x06 2
  let body := h 0x2C 4
  let secs := [(i.codeOff, i.codeSize), (h 0x10 4, 72 * i.lastCnt), (h 0x18 4, 32 * i.loopCnt), (h 0x20 4, i.dataSize)]
  let used := (secs.filter fun e => e.2 != 0).zipIdx
  h 0 4 == 0x4D524C48 && h 4 2 == 1 && decide (kind ≤ 1) && i.codeSize % 4 == 0 && i.codeSize != 0
  && decide (i.codeSize ≤ 2 ^ 24) && decide (i.lastCnt ≤ 64) && decide (i.dataSize ≤ 2 ^ 24) && i.argBytes % 8 == 0
  && decide (i.argBytes ≤ 256) && decide (h 0x2A 1 ≤ 2) && decide (1 ≤ i.minRods) && decide (i.minRods ≤ 64) && h 0x30 16 == 0
  && (if kind = 0 then decide (1 ≤ i.loopCnt) && decide (i.loopCnt ≤ 1024) && h 0x1C 4 == 0xFFFFFFFF
      else i.loopCnt == 0 && h 0x1C 4 % 4 == 0 && decide (h 0x1C 4 < i.codeSize))
  && secs.all (fun e => e.1 % 64 == 0)
  && used.all (fun e => decide (64 ≤ e.1.1) && decide (e.1.1 + e.1.2 ≤ body))
  && used.all fun a => used.all fun b => a.2 == b.2 || !rangesMeet a.1.1 (a.1.1 + a.1.2) b.1.1 (b.1.1 + b.1.2)

/-- Are the last entries good (R47, R51, R52)? -/
def Image.lastsOk (i : Image) : Bool :=
  let es := i.lastEntries
  es.all (fun e => decide (e.1 < 64) && e.2.imageOk && e.2.fld 6 0 64 == 0 && e.2.fld 7 0 64 == 0) &&
    decide ((es.map (·.1)).Nodup)

/-- Is a loop record good (R54)? -/
def Image.loopOk (i : Image) (n : Nat) : Bool :=
  let r := i.loopRec n
  let o := i.le 0x18 4 + 32 * n
  r.pro % 4 == 0 && r.ker % 4 == 0 && r.epi % 4 == 0 && decide (r.pro ≤ r.ker) && decide (r.ker < r.epi)
  && decide (r.epi < i.codeSize) && decide (1 ≤ r.stages) && decide (r.stages ≤ 16) && i.le (o + 17) 1 / 2 == 0
  && decide (1 ≤ r.iter) && decide (r.iter ≤ 4096) && i.le (o + 20) 12 == 0 && (!r.triparg || decide (r.trip ≤ 31))

/-- A place of `n` bytes in the device code region, if it has one: the first that is free of those at the region's start and at
the ends of the images held, rounded up to 128 bytes (log 15). -/
def State.codePlace (s : State) (n : Nat) : Option Nat :=
  let ends := 0 :: s.work.images.map fun i => (i.addr + i.bytes.length + 127) / 128 * 128
  ends.find? fun a => decide (a + n ≤ Config.codeRegion) &&
    s.work.images.all fun i => !rangesMeet a (a + n) i.addr (i.addr + i.bytes.length)

/-- A handle the firmware chooses: never zero, and never one given before (R48; log 3). -/
def State.newHandle (s : State) : BitVec 64 × State :=
  let r := s.freeWord
  let ok := fun h : BitVec 64 => h != 0 && !s.work.used.contains h
  if ok r.1 then r
  else ((((List.range (s.work.used.length + 2)).map fun n => BitVec.ofNat 64 n).find? ok).getD 0, r.2)

/-- Does a signature over a digest verify under the key that the firmware holds for a signer key index (R46)? -/
def signedBy (key : BitVec 64) (digest : BitVec 512) (sig : List Byte) : Bool :=
  match Config.trustedKey key with
  | some pk => mlDsaVerify pk (Config.signFrame ++ toLe 64 digest.toNat) sig
  | none => false

/-- IMG_LOAD's checks and the load (R47, R48). -/
def State.loadImage (s : State) (bs : List Byte) : Reply :=
  let ia := fieldAt bs 0x10 8
  let len := fieldAt bs 0x18 8
  if len < 64 || len > 2 ^ 26 then (1, 0, s)
  else if !s.covered ia len false then (badArgs, 0, s)
  else
    let bytes := s.sideBytes .mem ia len
    let body := fieldAt bytes 0x2C 4
    let key := BitVec.ofNat 64 (fieldAt bytes body 8)
    let digest := digestOf (bytes.take body)
    let i : Image := ⟨0, key, digest, bytes.take body, 0, 1, s.tick⟩
    if len ≠ body + 3317 then (1, 0, s)
    else if (Config.trustedKey key).isNone then (2, 0, s)
    else if !signedBy key digest (bytes.drop (body + 8)) then (3, 0, s)
    else if !i.headerOk then (4, 0, s)
    else if !i.lastsOk then (5, 0, s)
    else if !(List.range i.loopCnt).all i.loopOk then (6, 0, s)
    else match s.work.images.find? fun j => j.digest == digest with
      | some j =>
        (0, j.handle.toNat, { s with work := { s.work with
          images := s.work.images.map (fun k : Image => if k.handle == j.handle then { k with refs := k.refs + 1 } else k) } })
      | none => match s.codePlace body with
        | none => (7, 0, s)
        | some a =>
          let r := s.newHandle
          let i := { i with handle := r.1, addr := a }
          let w := r.2.work
          (0, r.1.toNat, { r.2 with work := { w with images := w.images ++ [i], used := r.1 :: w.used } })

/-- IMG_LOAD (R47). -/
def execImgLoad (q : Nat) (s : State) : Out :=
  serveForm 3 0 (fun bs s => .inl (s.loadImage bs)) q s fun bs _ =>
    if fieldAt bs 0x18 8 > 2 ^ 26 then [] else [(fieldAt bs 0x10 8, fieldAt bs 0x18 8)]

/-- Images whose count is zero and of which no kernel is left leave device memory (R48). -/
def State.dropImages (s : State) : State :=
  { s with work := { s.work with images := s.work.images.filter fun i =>
      i.refs != 0 || s.work.kernels.any fun k => k.image == i.handle } }

/-- IMG_UNLOAD (R48). -/
def execImgUnload (q : Nat) (s : State) : Out :=
  serveForm 4 0 (fun bs s =>
    let h := BitVec.ofNat 64 (fieldAt bs 0x10 8)
    match s.image? h with
    | none => .inl (22, 0, s)
    | some i =>
      if i.refs = 0 then .inl (26, 0, s)
      else
        let s := { s with work := { s.work with
          images := s.work.images.map (fun k : Image => if k.handle == h then { k with refs := k.refs - 1 } else k) } }
        .inl (0, 0, s.dropImages)) q s

/-- STEPPING of IDENT (R1). -/
def steppingCode : Nat := if Config.stepping then 0xB1 else 0xB0

/-- The attestation report (R49): what it holds, in the order of R49, and its signature. Its layout the spec does not give
(log 16). -/
def State.report (s : State) (nonce : List Byte) : List Byte :=
  let body := Config.serial ++ toLe 1 steppingCode ++ toLe 64 s.host.fwDigest.toNat
    ++ (s.work.images.flatMap fun i => toLe 64 i.digest.toNat ++ toLe 8 i.key.toNat ++ toLe 8 i.tick) ++ nonce
  body ++ (Config.sign body).toList

/-- ATTEST (R49). -/
def execAttest (q : Nat) (s : State) : Out :=
  serveForm 7 0 (fun bs s =>
    let nonceIa := fieldAt bs 0x10 8
    let ia := fieldAt bs 0x18 8
    if !s.covered nonceIa 32 false then .inl (badArgs, 0, s)
    else
      let r := s.report (s.sideBytes .mem nonceIa 32)
      if fieldAt bs 0x20 8 < r.length || !s.covered ia r.length true then .inl (badArgs, 0, s)
      else .inl (0, r.length, s.partPut ia s.fwOwner r)) q s (fun bs _ => [(fieldAt bs 0x10 8, 32)])
    fun bs s => [(fieldAt bs 0x18 8, (s.report (List.replicate 32 0)).length)]

/-! ### Launching (R50, R53, R68, R70) -/

/-- A last with IABASE and IALEN written, or none where it breaks R53. An empty last has nothing to translate and takes zeros
(log 27). -/
def Last.place (l : Last) (c : Ctx) (spad : Nat) : Option Last :=
  let set := fun ia n : Nat => (l &&& BitVec.ofNat 512 (2 ^ 384 - 1)) ||| BitVec.ofNat 512 (ia % 2 ^ 52 * 2 ^ 384 + n % 2 ^ 52 * 2 ^ 448)
  if l.rank = 0 then some (set 0 0)
  else match l.space with
    | 0 =>
      match c.translate l.base l.footprint true (!l.ro) with
      | none => none
      | some ia =>
        if isDbTy l.ty && (c.translate l.scale l.planeBytes true (!l.ro)).isNone then none else some (set ia l.footprint)
    | 1 => if l.base + l.footprint ≤ spad then some (set l.base l.footprint) else none
    | _ => if l.base + l.footprint ≤ 2 ^ 23 then some (set l.base l.footprint) else none

/-- The lasts that a kernel of a context holds. -/
def State.heldLasts (s : State) (asid : Nat) : List Nat := (s.kernelsOf asid).flatMap (·.lasts)

/-- Would lasts, each with its index, change one that a kernel of the context holds (R50)? IABASE and IALEN, which launch
writes, follow from the other fields. -/
def State.lastsBusy (s : State) (asid : Nat) (es : List (Nat × Last)) : Bool :=
  let held := s.heldLasts asid
  es.any fun e => held.contains e.1 && e.2.extractLsb' 0 384 != ((s.ctx asid).lasts.getD e.1 0).extractLsb' 0 384

/-- Lasts written into a context's table, each with its index and translated (R53); LAST_RANGE where one breaks R53. -/
def State.placeLasts (s : State) (asid : Nat) (es : List (Nat × Last)) (spad : Nat) : Nat × State :=
  let placed := es.map fun e => (e.1, e.2.place (s.ctx asid) spad)
  if placed.any fun e => e.2.isNone then (20, s)
  else (0, s.modCtx asid fun c => { c with lasts := placed.foldl (fun ls e => ls.setIfInBounds e.1 (e.2.getD 0)) c.lasts })

/-- The lasts of an image written into a context's table (R50, R53): LAST_BUSY, then LAST_RANGE. -/
def State.writeLasts (s : State) (asid : Nat) (es : List (Nat × Last)) (spad : Nat) : Nat × State :=
  if s.lastsBusy asid es then (19, s) else s.placeLasts asid es spad

/-- A kernel number the firmware chooses, unique among the kernels that have not retired (R68; log 3). -/
def State.newKernelNum (s : State) : Nat × State :=
  let r := s.choose (2 ^ 32 - 1)
  let ok := fun n => (s.kernel? n).isNone
  if ok (r.1 + 1) then (r.1 + 1, r.2)
  else (((List.range (s.work.kernels.length + 2)).find? fun n => n != 0 && ok n).getD 0, r.2)

/-- A kernel enters the ready list of its priority (R68). -/
def State.addKernel (s : State) (asid : Nat) (image : BitVec 64) (prio rods dies arg : Nat) (order : Nat × Nat)
    (lasts : List Nat) (stage : Option Nat) : Nat × State :=
  let r := s.newKernelNum
  let k : Kernel :=
    { num := r.1, asid := asid, image := image, prio := prio, eff := prio, readyTick := s.tick, order := order,
      nrods := rods, dies := dies, argVa := arg, lasts := lasts, stage := stage }
  let w := r.2.work
  (r.1, { r.2 with work := { w with kernels := w.kernels ++ [k] } })

/-- A virtual range of a context that one of its windows holds (log 27) and that is mapped, as an intermediate address. -/
def State.argIa (s : State) (asid va n : Nat) (write : Bool) : Option Nat :=
  ((s.ctx asid).translate va n (!write) write).bind fun ia => if s.covered ia n write then some ia else none

/-- The checks and steps of LAUNCH (R68): the image's lasts are checked against those held (R50); the patch, which may change
one that is held, is applied; and all are translated (R53). The kernel holds the lasts of its image. -/
def State.launch (s : State) (asid : Nat) (bs : List Byte) (order : Nat × Nat) : Reply :=
  let f := fun off n => fieldAt bs off n
  let h := BitVec.ofNat 64 (f 0x10 8)
  let rods := f 0x28 2
  let dies := f 0x2A 1
  let patch := f 1 1 % 2 = 1
  let pl := f 0x2B 1
  if f 0x2C 4 ≠ 0 then (badCommand, 0, s)
  else match s.image? h with
  | none => (22, 0, s)
  | some i =>
    let c := s.ctx asid
    let max := Nat.min (Nat.min 64 c.maxRods) (if dies = 1 || dies = 2 then 32 else 64)
    let args := 4 * rods * i.argBytes
    let own := i.lastEntries
    let old := match own.find? fun e => e.1 == pl with
      | some e => e.2
      | none => c.lasts.getD pl 0
    let new : Last := (old &&& ~~~(BitVec.ofNat 512 ((2 ^ 128 - 1) * 2 ^ 64)))
      ||| BitVec.ofNat 512 (f 0x30 8 * 2 ^ 64 + f 0x38 8 * 2 ^ 128)
    let es := if patch then (own.filter fun e => e.1 != pl) ++ [(pl, new)] else own
    if rods < i.minRods || rods > max then (21, 0, s)
    else if dies > 2 || f 2 1 > c.prioMax || (patch && pl > 63) then (badArgs, 0, s)
    else if args ≠ 0 && (s.argIa asid (f 0x18 8) args false).isNone then (badArgs, 0, s)
    else if i.dataSize ≠ 0 && (s.argIa asid (f 0x20 8) i.dataSize true).isNone then (badArgs, 0, s)
    else if s.lastsBusy asid own then (19, 0, s)
    else if patch && (!old.patch || !new.imageOk) then (badArgs, 0, s)
    else match s.placeLasts asid es i.spadBytes with
      | (0, s) =>
        let s := match if i.dataSize ≠ 0 then s.argIa asid (f 0x20 8) i.dataSize true else none with
          | some ia => s.partPut ia { dom := s.regs.domain, asid := asid } i.data
          | none => s
        let r := s.addKernel asid h (f 2 1) rods dies (f 0x18 8) order (own.map (·.1)) none
        (0, r.1, r.2)
      | (st, _) => (st, 0, s)

/-- The bytes that a LAUNCH writes: its image's initial data, where they are mapped. -/
def launchWrites (bs : List Byte) (s : State) : List (Nat × Nat) :=
  match s.liveCtx (fieldAt bs 4 4), s.image? (BitVec.ofNat 64 (fieldAt bs 0x10 8)) with
  | some a, some i => ((s.argIa a (fieldAt bs 0x20 8) i.dataSize true).map fun ia => (ia, i.dataSize)).toList
  | _, _ => []

/-- LAUNCH (R68). -/
def execLaunch (q : Nat) (s : State) : Out :=
  serveForm 5 1 (inContext fun a bs s => Sum.inl (s.launch a bs (q, (s.lq q).head.toNat))) q s (fun _ _ => []) launchWrites

/-- Does the read of a KLAUNCH's command wait for its page, which is being retired (R394)? -/
def State.klaunchWaits (s : State) (core : Nat) (k : KLaunchWait) : Bool :=
  match s.resolve core k.va.toNat 64 true false true with
  | some (.dram _ ia _) => s.linesRetiring [ia / 128]
  | _ => false

/-- KLAUNCH's command, as it is read, a class-0 load in its place in the order that finds the errors of its line (R389), and answered (R70,
R161). -/
def State.klaunchReply (s : State) (core : Nat) (k : KLaunchWait) : Reply :=
  let va := k.va
  if va.toNat % 64 ≠ 0 then (badArgs, 0, s)
  else match s.resolve core va.toNat 64 true false true with
  | none => (badArgs, 0, s)
  | some l =>
    let s := match l with
      | .dram _ ia _ => s.partLines ia 64 none
      | _ => s
    let v := s.pickView core
    let bs := if s.locPoisoned l then List.replicate 64 0 else v.2.viewBytes v.1 l 64
    let s := v.2.modCore core fun c => { c with view := v.1 }
    let s := if s.countsLost core l then s.poisonLoc core l else s
    if fieldAt bs 0 1 ≠ 5 || fieldAt bs 3 1 ≠ 0 || (fieldAt bs 1 1 % 128 &&& 126) ≠ 0 then (badCommand, 0, s)
    else if fieldAt bs 4 4 ≠ 0 then (badArgs, 0, s)
    else match s.asidOf core with
      | some a => if (s.ctx a).ending then (noContext, 0, s) else s.launch a bs (64, 0)
      | none => (noContext, 0, s)

/-- KLAUNCH_ACCEPT (R161): the first KLAUNCH at issue on a core is answered, once its time has come and its read is next in the order; by
its last tick it is answered as it stands (log 19). -/
def execKlaunchAccept (core : Nat) (s : State) : Out :=
  match (s.core core).seq.klaunch.find? fun k => k.result.isNone with
  | none => .next s
  | some k =>
    let id := (s.core core).uid
    let s := (s.pump core).force core id
    if s.tick < k.till || s.klaunchWaits core k || (!s.ringTurn core id && decide (s.tick < k.last)) then .next s
    else
      let r := (s.seeFence core id).klaunchReply core k
      let v := BitVec.ofNat 64 (r.1 + (if r.1 = 0 then r.2.1 * 2 ^ 32 else 0))
      .next (r.2.2.modCore core fun c => { c with seq := { c.seq with
        klaunch := c.seq.klaunch.map fun e => if e.slot = k.slot then { e with result := some v } else e } })

/-- The answer that the KLAUNCH of the acting slot has. -/
def State.klaunchResult (s : State) : Option Word :=
  (s.me.seq.klaunch.find? fun k => k.slot == s.slot).bind (·.result)

/-- KLAUNCH (R161): it asks, with a free time to its answer, within 28,000 ticks (log 3); as its bundle issues, the command is answered,
if it has not been (`execKlaunchAccept`), and the result lands with bound 1. -/
def execKlaunch (xd : BitVec 5) (ar : BitVec 4) (s : State) : Out :=
  if s.me.seq.klaunch.any fun k => k.slot == s.slot then
    (if s.klaunchResult.isSome then .next s else execKlaunchAccept s.act s).andThen fun s =>
      match s.klaunchResult with
      | some v => .next (s.onMe fun c => { c.putX xd v with
          seq := { c.seq with klaunch := c.seq.klaunch.filter fun k => k.slot != s.slot } })
      | none => .next s
  else
    let r := s.choose 28000
    .next (r.2.onMe fun c => { c with seq := { c.seq with
      klaunch := c.seq.klaunch ++ [{ slot := s.slot, va := s.ra ar, till := s.tick + r.1, last := s.tick + 28000 }] } })

end Sys2Proof.Machine
end

