-- ==== Sys2Proof/Machine/Lacer.lean ====
section
/-!
DEFINITION. The lacer (R82 to R92, R311, R312): PIPE_BIND, the stages' consume and publish, pipeline ends and ownership: the
LACE group, STAGE_ELEMENT_LANDED and ELEMENT_PUBLISHED.
-/
namespace Sys2Proof.Machine

/-! ### The tables (R82) -/

/-- Is an entry a catch-up copy? -/
def State.isCatchup (s : State) (e : Nat) : Bool := s.pipeList.any fun p => p.2.catchup.contains e
/-- Is an entry the final stage of a pipeline? -/
def State.isFinal (s : State) (e : Nat) : Bool := s.pipeList.any fun p => p.2.path.getLast? == some e

/-- The pipeline whose context owns a shared stage from its next boundary on: of those through it, the one whose bind completed
earliest (R91). -/
def State.nextPipe (s : State) (e : Nat) : Option Pipe :=
  s.pipeList.foldl (fun b p => if p.2.path.contains e then match b with
      | some q => if p.2.bound < q.bound then some p.2 else b
      | none => some p.2
    else b) (none : Option Pipe)

/-- That context. -/
def State.nextOwner (s : State) (e : Nat) : Option Nat := (s.nextPipe e).map (·.asid)

/-- The accepted operations of a core keep the lasts that they were accepted with (R91). -/
def State.keepSides (s : State) (n : Nat) : State :=
  let keep := fun o : EngOp => if o.accepted then { o with sides := some (s.sidesOf n o) } else o
  s.modCoreAt n fun c => { c with eng := { c.eng with eng := c.eng.eng.map keep } }

/-- The cores of a kernel, or its saved ones, by number or reference. -/
def Kernel.allCores (k : Kernel) : List Nat :=
  if k.st == .placed then k.cores else (List.range k.saved.length).map fun i => 256 + 256 * k.num + i

/-- A shared stage and its kernel move to their next owner, whose lasts and source last they use from now on, but for what was accepted
before (R91); the rods stay, whatever the new owner's MAXRODS is (log 25). -/
def State.moveOwner (s : State) (k : Kernel) : State :=
  match k.stage with
  | none => s
  | some e => match s.nextPipe e with
    | none => s
    | some p => ((((s.kernel? k.num).getD k).allCores.foldl State.keepSides s).modEntry e fun l => { l with owner := p.asid, srcLast := p.srcLast }).modKernel k.num fun k =>
        { k with asid := p.asid, transferDue := false }

/-- The entry from which a consumer takes its element `idx` (R86, R87): the catch-up branch below J, the eyelet from J on. -/
def LaceEntry.provider (l : LaceEntry) (idx : Nat) : Option Nat :=
  match l.feed with
  | some f => if idx < l.feedJoin then some f else l.parent
  | none => l.parent

/-- The consumers attached to an entry for its element `idx`. -/
def State.consumers (s : State) (e idx : Nat) : List Nat :=
  (s.entries.filter fun c => !c.2.gone && c.2.provider idx == some e && decide (c.2.cons ≤ idx)).map (·.1)

/-! ### Binding (R58 to R60, R84 to R89) -/

/-- First 8 bytes of SHAKE256, read little-endian. -/
def hash8 (bs : List Byte) : BitVec 64 := BitVec.ofNat 64 (leNat (shake256 bs 8))

/-- A stage's handle in a context (R59). -/
def State.stageHandle (s : State) (asid : Nat) (i : Image) : BitVec 64 :=
  hash8 (toLe 64 i.digest.toNat ++ (List.range 64).flatMap fun d =>
    let l : Last := (s.ctx asid).lasts.getD d 0
    if l.rank ≠ 0 && l.param && i.lastEntries.any fun e => e.1 == d then
      toLe 1 d ++ toLe 8 l.iaBase ++ toLe 8 l.iaLen ++ toLe 1 (l.fld 0 0 4)
    else [])

/-- The source handle (R60). -/
def sourceHandle (l : Last) : BitVec 64 :=
  hash8 (toLe 8 l.iaBase ++ toLe 8 l.iaLen ++ toLe 1 (l.fld 0 0 4) ++ toLe 1 (if l.replay then 1 else 0))

/-- One stage of a descriptor (Table 3-5), with its image and what it consumes. -/
structure StageDesc where
  image : Image
  ity : ElemTy
  ibytes : Nat
  oty : ElemTy
  obytes : Nat
  deriving DecidableEq, Repr, Inhabited

/-- The stages of a descriptor, where each passes step 1 of R84. -/
def State.stageDescs (s : State) (bs : List Byte) : Nat → Nat → ElemTy → Nat → Option (List StageDesc)
  | 0, _, _, _ => some []
  | n + 1, j, ity, ibytes =>
    let o := 0x20 + 16 * j
    match s.image? (BitVec.ofNat 64 (fieldAt bs o 8)), ElemTy.ofCode (BitVec.ofNat 4 (fieldAt bs (o + 8) 1)) with
    | some i, some oty =>
      let obytes := fieldAt bs (o + 12) 4
      if i.persistent || i.argBytes ≠ 0 || i.dataSize ≠ 0 || fieldAt bs (o + 8) 1 ≥ 16 || fieldAt bs (o + 9) 3 ≠ 0 then none
      else (s.stageDescs bs n (j + 1) oty obytes).map (⟨i, ity, ibytes, oty, obytes⟩ :: ·)
    | _, _ => none

/-- The lasts of the stages' images written in order (R84 step 2); an index that two stages fill differently is busy. -/
def State.bindLasts (s : State) (asid : Nat) : List StageDesc → List Nat → Nat × State
  | [], _ => (0, s)
  | d :: ds, seen =>
    let before := (s.ctx asid).lasts
    match s.writeLasts asid d.image.lastEntries d.image.spadBytes with
    | (0, s') =>
      let es := d.image.lastEntries.map (·.1)
      let after := (s'.ctx asid).lasts
      if es.any fun e => seen.contains e && before.getD e 0 != after.getD e 0 then (19, s)
      else s'.bindLasts asid ds (seen ++ es)
    | (st, _) => (st, s)

/-- The search of R85: the shared stages found, last one first. `none` is the OTYPE mismatch of R83. -/
def State.matchStages (s : State) (src : BitVec 64 × ElemTy × Nat) : List (StageDesc × BitVec 64) → Nat → List Nat → Option (List Nat)
  | [], _, found => some found
  | (d, h) :: ds, depth, found =>
    match s.entries.find? fun e => !e.2.priv && !e.2.retiring && e.2.parent == found.head? && e.2.depth == depth
        && e.2.handle == h && e.2.src == src && e.2.ity == d.ity && e.2.ibytes == d.ibytes with
    | some e => if e.2.oty != d.oty || e.2.obytes != d.obytes then none else s.matchStages src ds (depth + 1) (e.1 :: found)
    | none => some found

/-- SCONSs of a kernel that are issued and have not taken their element. -/
def State.consPending (s : State) (kernel : Nat) : Nat :=
  match s.kernel? kernel with
  | none => 0
  | some k =>
    let cs := if k.st == .placed then k.cores.map s.core else k.saved
    ((cs.flatMap fun c => c.eng.eng).filter fun o => !o.accepted && (match o.kind with
      | .scons _ => true
      | _ => false)).length

/-- New stage entries from `ds` on: the lowest free entry (log 25) and a kernel of the
binding context each (R88). Answers the entries. -/
def State.addStages (s : State) (asid srcLast : Nat) (src : BitVec 64 × ElemTy × Nat) (q idx join start : Nat) (catchup : Bool)
    (feed : Option Nat) (last : Nat) : List (StageDesc × BitVec 64) → Nat → Option Nat → List Nat × State
  | [], _, _ => ([], s)
  | (d, h) :: ds, depth, parent =>
    match s.work.lace.toList.findIdx? (·.isNone) with
    | none => ([], s)
    | some e =>
      let prio := (s.ctx asid).prioMax
      let r := s.addKernel asid d.image.handle (Nat.min prio 6) d.image.minRods 0 0 (q, idx) (d.image.lastEntries.map (·.1)) (some e)
      let l : LaceEntry :=
        { handle := h, src := src, ity := d.ity, ibytes := d.ibytes, oty := d.oty, obytes := d.obytes, parent := parent,
          depth := depth, priv := catchup || decide (depth = last), attach := 1, owner := asid, kernel := r.1, join := join,
          srcLast := srcLast, cons := start, pub := start, feed := feed, feedJoin := if feed.isSome then join else 0 }
      let w := r.2.work
      let s := { r.2 with work := { w with lace := w.lace.setIfInBounds e (some l) } }
      let t := s.addStages asid srcLast src q idx join start catchup none last ds (depth + 1) (some e)
      (e :: t.1, t.2)

/-- The steps of PIPE_BIND (R84). The pipeline takes the lowest free slot (log 25). -/
def State.pipeBind (s : State) (asid : Nat) (bs : List Byte) (q idx : Nat) : Reply :=
  let va := fieldAt bs 0x10 8
  let c := s.ctx asid
  match s.argIa asid va 32 false with
  | none => (badArgs, 0, s)
  | some ia =>
    let hd := s.sideBytes .mem ia 32
    let n := fieldAt hd 1 1
    if n < 1 || n > 16 || fieldAt hd 0 1 > 63 || fieldAt hd 2 1 ≥ 16 || fieldAt hd 3 5 ≠ 0 || fieldAt hd 8 4 < 1
        || fieldAt hd 8 4 > 2 ^ 20 || fieldAt hd 12 4 ≠ 0 || fieldAt hd 0x10 8 ≥ 2 ^ 48 || fieldAt hd 0x18 8 ≠ 0
        || !Last.src (c.lasts.getD (fieldAt hd 0 1) 0) then (28, 0, s)
    else match s.argIa asid va (32 + 16 * n) false with
    | none => (badArgs, 0, s)
    | some ia =>
      let ds := s.sideBytes .mem ia (32 + 16 * n)
      let f := fun off k => fieldAt ds off k
      let start := f 0x10 8
      let ebytes := f 8 4
      let srcLast := f 0 1
      match ElemTy.ofCode (BitVec.ofNat 4 (f 2 1)) with
      | none => (28, 0, s)
      | some ety =>
      match s.stageDescs ds n 0 ety ebytes with
      | none => (28, 0, s)
      | some stages =>
        match s.bindLasts asid stages [] with
        | (0, s) =>
            let sl : Last := (s.ctx asid).lasts.getD srcLast 0
            let src := (sourceHandle sl, ety, ebytes)
            let hs := stages.map fun d => (d, s.stageHandle asid d.image)
            match s.matchStages src (hs.take (n - 1)) 0 [] with
            | none => (28, 0, s)
            | some found =>
              let p := found.length
              let join := match found.head?.bind s.entry? with
                | some l => l.cons + s.consPending l.kernel
                | none => start
              let catchup := decide (p > 0) && decide (start < join)
              let need := n - p + (if catchup then p else 0)
              let room := (s.work.lace.toList.filter (·.isNone)).length
              if catchup && !sl.replay then (29, 0, s)
              else match s.work.pipes.toList.findIdx? (·.isNone) with
              | none => (30, 0, s)
              | some slot =>
                if room < need then (30, 0, s)
                else if (if catchup then stages else stages.drop p).any fun d => decide (d.image.minRods > c.maxRods) then (21, 0, s)
                else
                  let s := found.foldl (fun (s : State) e => s.modEntry e fun l => { l with attach := l.attach + 1 }) s
                  let cu := if catchup then s.addStages asid srcLast src q idx join start true none (n - 1) (hs.take p) 0 none else ([], s)
                  let nw := cu.2.addStages asid srcLast src q idx join start false cu.1.getLast? (n - 1) (hs.drop p) p found.head?
                  let s := nw.2
                  let pipe : Pipe := ⟨asid, srcLast, found.reverse ++ nw.1, cu.1, join, start, s.work.binds⟩
                  let s := { s with work := { s.work with pipes := s.work.pipes.setIfInBounds slot (some pipe), binds := s.work.binds + 1 } }
                  (0, (if catchup then 2 ^ 61 else 0) + p * 2 ^ 56 + slot * 2 ^ 48 + join % 2 ^ 48, s)
        | (st, _) => (st, 0, s)

/-- The bytes that a PIPE_BIND reads: its header and stage descriptors, where they are mapped. -/
def bindReads (bs : List Byte) (s : State) : List (Nat × Nat) :=
  match (s.liveCtx (fieldAt bs 4 4)).bind fun a => s.argIa a (fieldAt bs 0x10 8) 32 false with
  | some ia => [(ia, 32 + 16 * Nat.min 16 (fieldAt (s.sideBytes .mem ia 2) 1 1))]
  | none => []

/-- PIPE_BIND (R84). -/
def execPipeBind (q : Nat) (s : State) : Out :=
  serveForm 6 0 (inContext fun a bs s => Sum.inl (s.pipeBind a bs q (s.lq q).head.toNat)) q s bindReads

/-! ### The LACE group (R311, R312) -/

/-- The entry of the stage kernel that holds a core, saved cores included. -/
def State.stageAt (s : State) (n : Nat) : Option (Nat × LaceEntry) :=
  let k := if n < 256 then s.kernelOf n else s.kernel? ((n - 256) / 256)
  (k.bind (·.stage)).bind fun e => (s.entry? e).map fun l => (e, l)

/-- SJOIN (R311). -/
def execSjoin (xd : BitVec 5) (s : State) : Out :=
  xHeld xd (match s.stageAt s.act with
    | some e => BitVec.ofNat 64 (e.2.join % 2 ^ 48)
    | none => BitVec.allOnes 64) s

/-- SCONS (R312). -/
def execScons (dl : BitVec 6) (kout kin : BitVec 4) (s : State) : Out := .next (s.issueEng (.scons dl) .recv kout kin)

/-- SPUB (R312): its issue is the element boundary, at which a RETIRING stage retires and a shared stage that has a new owner moves to it,
once the element has been published through the old owner's last (R90, R91). -/
def execSpub (dl : BitVec 6) (kout kin : BitVec 4) (s : State) : Out :=
  let id := s.nextOp
  let s := s.issueEng (.spub dl) .other kout kin
  match s.stageAt s.act with
  | none => .next s
  | some e =>
    let hold := fun (kind : PreKind) => s.onMe fun c => { c with seq := { c.seq with pubStop := some (c.seq.pubStop.getD (id, kind)) } }
    if e.2.retiring then .next (hold .stop)
    else if !e.2.priv && s.nextOwner e.1 != some e.2.owner && (s.nextOwner e.1).isSome then .next (hold .transfer)
    else .next s

/-- REASON of an SCONS or SPUB that its last or its kernel refuses (R312, Table 13-4), or 0. `n` is the element size. -/
def stageReason (l : Last) (n : Nat) (write : Bool) : Nat :=
  if l.rank = 0 then 2
  else if l.space ≥ 2 || l.footprint ≠ n then 3
  else if write && l.ro then 4
  else 0

/-- The bytes of the element that an SCONS takes next (R312): `none` where it has not been published, an error where there is
none left. -/
def State.nextElement (s : State) (core e : Nat) (l : LaceEntry) : Except Unit (Option (List Byte)) :=
  if s.isCatchup e && decide (l.cons ≥ l.join) then .error ()
  else if l.depth = 0 then
    let src := s.last core (BitVec.ofNat 6 l.srcLast)
    let ia := src.iaBase + l.cons * l.ibytes
    if (l.cons + 1) * l.ibytes > src.iaLen then .error ()
    else if src.space = 0 && s.linesRetiring (linesOf [(ia, l.ibytes)]) then .ok none
    else .ok (some (s.sideBytes (src.side core) (src.start + l.cons * l.ibytes) l.ibytes))
  else
    match l.provider l.cons with
    | none => .error ()
    | some p =>
      match s.work.elems.find? fun x => x.entry == p && x.idx == l.cons && x.waiting.contains e with
      | some x => .ok (if x.ready ≤ s.tick then some x.bytes else none)
      | none => match s.entry? p with
        | some u => if u.gone then .error () else .ok none
        | none => .error ()

/-- The lines of the source last that the first stage of a pipeline reads for its next element (R274), of which `bs` are the bytes where
no error is found; answers the ticks of the DRAM replays, and the bytes. -/
def State.sourceRead (s : State) (core : Nat) (o : EngOp) (l : LaceEntry) (bs : List Byte) : (Nat × List Byte) × State :=
  let src := s.last core (BitVec.ofNat 6 l.srcLast)
  if l.depth ≠ 0 || src.space ≠ 0 then ((0, bs), s)
  else
    let ia := src.iaBase + l.cons * l.ibytes
    let r := s.engAccess core o.kout.toNat (linesOf [(ia, l.ibytes)]) false
    ((r.1, r.2.sideBytes .mem ia l.ibytes), r.2)

/-- STAGE_ELEMENT_LANDED (R86, R312): an SCONS whose element is there takes it, and its consume index rises; the element
lands in its last at a free later tick (log 3), and the token completes. -/
def execStageElementLanded (core op : Nat) (s : State) : Out :=
  match s.eng? core op with
  | none => .next s
  | some o =>
    match o.kind with
    | .scons d =>
      let l := s.last core d
      let refuse := fun n : Nat => Host.Outcome.next (s.modCore core fun c => c.refuse op n)
      if o.accepted then
        if s.tick < o.aux + o.late || (s.opHole core o).isSome || s.opWaits core o then .next s
        else match o.msg with
          | some m =>
            let l := (s.sidesOf core o).dstLast
            let s := if l.space = 0 then s.engLines core o.kout.toNat (linesOf [(l.iaBase, l.footprint)]) true else s
            .next ((s.engPut core op (l.side core) (cellsAt l.start m.payload)).modCore core fun c => c.complete op s.tick 0)
          | none => .next s
      else if !s.engGo core op || !(s.core core).arch.tokEnded o.kin then .next s
      else if (s.core core).arch.tokState o.kin == .refused then refuse 1
      else match s.stageAt core with
        | none => refuse 14
        | some (e, en) =>
          let why := stageReason l en.ibytes true
          if why != 0 then refuse why
          else match s.nextElement core e en with
            | .error _ => refuse 13
            | .ok none => .next s
            | .ok (some bs) =>
              let r := s.sourceRead core o en bs
              let s := r.2
              let s := s.modEntry e fun l => { l with cons := l.cons + 1 }
              let take := fun x : StageElem =>
                if some x.entry == en.provider en.cons && x.idx == en.cons then { x with waiting := x.waiting.filter (· != e) } else x
              let s := { s with work := { s.work with elems := s.work.elems.map take } }
              let t := s.tick + r.1.1 + Config.choice s.fresh
              let m : Message := ⟨.data, en.ity, 0, 0, 0, r.1.2⟩
              .next ({ s with fresh := s.fresh + 1 }.modCore core fun c =>
                c.modEng op fun o => { o with accepted := true, acceptTick := s.tick, aux := t, msg := some m })
    | _ => .next s

/-- Does an SPUB wait for stores of its core to the lines of its last (R243), or for a page of it that is being retired (R394)? -/
def State.spubWaits (s : State) (core : Nat) (o : EngOp) : Bool := match o.kind with
  | .spub d =>
    let l := s.last core d
    l.space == 0 && (s.storesPending core o.id 0 l || s.spansRetiring (s.opSpans core o))
  | _ => false

/-- The oldest SPUB of a stage that can be taken up: of its cores in launch order, the first one issued, once its kin has
ended. -/
def State.readySpub (s : State) (l : LaceEntry) : Option (Nat × EngOp) :=
  match s.kernel? l.kernel with
  | none => none
  | some k => if k.st != .placed then none else
    k.cores.findSome? fun c => ((s.core c).eng.eng.find? fun o => match o.kind with
        | .spub _ => !o.accepted
        | _ => false).bind fun o =>
      if s.engGo c o.id && (s.core c).arch.tokEnded o.kin && !s.spubWaits c o then some (c, o) else none

/-- The SPUB at whose boundary its stage retires or changes its owner has been taken up, or refused: that pre-emption is requested (R90,
R91). -/
def State.published (s : State) (core op : Nat) : State :=
  match (s.core core).seq.pubStop, (s.core core).unit.kernel with
  | some (id, kind), some k =>
    if id != op then s
    else
      let s := s.modCore core fun c => { c with seq := { c.seq with pubStop := none } }
      (if kind == .transfer then s.modKernel k fun k => { k with transferDue := k.stop.isSome } else s).requestPre k kind
  | _, _ => s

/-- The catch-up branch of which an entry is the last stage, when it has delivered element J - 1 (R87): its kernels retire. -/
def State.catchupEnd (s : State) (e : Nat) (idx : Nat) : State :=
  match s.pipeList.find? fun p => p.2.catchup.getLast? == some e with
  | some p =>
    if idx + 1 = p.2.join then
      p.2.catchup.foldl (fun (s : State) x => match s.entry? x with
        | some l => s.requestPre l.kernel .stop
        | none => s) s
    else s
  | none => s

/-- Is there something to publish for an entry: an SPUB to take up, or an element that every consumer has accepted? -/
def State.publishDue (s : State) (e : Nat) : Bool :=
  match s.entry? e with
  | none => false
  | some l => (s.readySpub l).isSome || s.work.elems.any fun x => x.entry == e && x.waiting.isEmpty && decide (x.ready ≤ s.tick)

/-- ELEMENT_PUBLISHED (R86, R312): an element that every consumer has accepted is published, and its SPUB completes; else the
next SPUB is taken up: it is promised for a tick that the spec does not give (log 3), and its bytes, through the last of the owner of that
moment, are offered to the consumers attached. -/
def execElementPublished (entry : Nat) (s : State) : Out :=
  match s.entry? entry with
  | none => .next s
  | some l =>
    match s.work.elems.find? fun x => x.entry == entry && x.waiting.isEmpty && decide (x.ready ≤ s.tick) with
    | some x =>
      let s := { s with work := { s.work with elems := s.work.elems.erase x } }
      let s := s.modCoreAt x.core fun c => c.complete x.op s.tick 0
      .next (s.catchupEnd entry x.idx).cleanLace
    | none =>
      match s.readySpub l with
      | none => .next s
      | some (core, o) =>
        match o.kind with
        | .spub d =>
          let la := s.last core d
          let refuse := fun n : Nat => Host.Outcome.next ((s.modCore core fun c => c.refuse o.id n).published core o.id)
          let why := stageReason la l.obytes false
          if (s.core core).arch.tokState o.kin == .refused then refuse 1
          else if s.isFinal entry then refuse 14
          else if why != 0 then refuse why
          else
            let s' := { s with fresh := s.fresh + 1 }.modCore core fun c =>
              (c.promise o.id (s.tick + Config.choice s.fresh)).modEng o.id fun o =>
                { o with accepted := true, acceptTick := s.tick, aux := s.tick }
            let s' := s'.published core o.id
            if (s.opHole core o).isSome then .next s'
            else
              let r := if la.space = 0 then s'.engAccess core o.kout.toNat (linesOf [(la.iaBase, la.footprint)]) false else (0, s')
              let s' := r.2
              let bs := s'.sideBytes (la.side core) la.start la.footprint
              let x : StageElem := ⟨entry, l.pub, bs, s.consumers entry l.pub, s.refOf core, o.id, s.tick + r.1⟩
              let s' := s'.modEntry entry fun l => { l with pub := l.pub + 1 }
              .next { s' with work := { s'.work with elems := s'.work.elems ++ [x] } }
        | _ => .next s

/-- Is an SPUB of a core refused now: its kernel is no stage, and its kin has ended (R312)? -/
def State.spubEnds (s : State) (core : Nat) (o : EngOp) : Bool := match o.kind with
  | .spub _ => (s.stageAt core).isNone && s.engGo core o.id && (s.core core).arch.tokEnded o.kin
  | _ => false

/-- The SPUBs of a core that are refused now. -/
def State.settleSpub (s : State) (core : Nat) : State :=
  ((s.core core).eng.eng.filter (s.spubEnds core)).foldl (fun s o => s.modCore core fun c =>
    c.refuse o.id (if c.arch.tokState o.kin == .refused then 1 else 14)) s

/-! ### Ends (R90) -/

/-- A stage kernel has retired: nothing waits for it any more, and the pipeline of a final stage ends. -/
def State.stageRetired (s : State) (k : Kernel) : State :=
  match k.stage with
  | none => s
  | some e =>
    let s := s.modEntry e fun l => { l with gone := true }
    let leave := fun x : StageElem => { x with waiting := x.waiting.filter (· != e) }
    let s := { s with work := { s.work with elems := s.work.elems.map leave } }
    let s := match s.pipeList.find? fun p => p.2.path.getLast? == some e with
      | some p => s.endPipe p.1
      | none => s
    s.cleanLace

/-- The state of a stage's kernel is lost: the kernel retires, and every pipeline through its entry ends (Table 21-11). -/
def State.failStage (s : State) (k : Kernel) : State :=
  match k.stage with
  | none => s
  | some e => (s.pipeList.filter fun p => p.2.path.contains e || p.2.catchup.contains e).foldl (fun (s : State) p => s.endPipe p.1)
      (s.requestPre k.num .stop)

/-- LACEDATA (Table 22-6). -/
def State.lacedata (s : State) : BitVec 64 :=
  let e := rfield s.regs.lacesel 0 8
  match s.entry? e with
  | none => 0
  | some l =>
    match rfield s.regs.lacesel 8 2 with
    | 0 => l.handle
    | 1 => BitVec.ofNat 64 (2 ^ 63 + (if l.priv then 2 ^ 62 else 0) + (if l.retiring then 2 ^ 61 else 0) + l.attach * 2 ^ 52
        + l.parent.getD 0x1FF * 2 ^ 43 + l.depth * 2 ^ 39 + s.ctxNum l.owner)
    | 2 => BitVec.ofNat 64 (l.kernel * 2 ^ 32)
    | _ => 0

end Sys2Proof.Machine
end

