-- ==== Sys2Proof/Machine/Power.lean ====
section
/-!
DEFINITION. Operating points, boost and limits (R226 to R241): targets, changes, permits, the boost pools, the package cap,
the thermal trips, the frequency trace, and the gating and waking of rods.
-/
namespace Sys2Proof.Machine

/-! ### Points and clocks (R226, R227) -/

/-- SETTLE of a point, in ticks (Table 12-1). -/
def settle (p : Nat) : Nat := if p ≥ 7 then 2800 else if p = 6 then 2100 else 1400

/-- Is the rod in a ramp? -/
def RodClock.ramping (k : RodClock) : Bool := match k.change with
  | some c => !c.relock
  | none => false

/-- Has the rod a clock? A gated rod has none; a waking one has it from its restore on (R240). -/
def Rod.clocked (r : Rod) : Bool := match r.pm.state with
  | .on | .quiesce | .save => true
  | .waking => r.pm.restoring
  | .clockGated | .hold | .railDown | .railGated => false

/-- The rods of a panel (R12). -/
def rodsOf (panel : Nat) : List Nat := [4 * panel, 4 * panel + 1, 4 * panel + 2, 4 * panel + 3]
/-- The panels of a die (R12). -/
def panelsOf (die : Nat) : List Nat := (List.range 8).map fun i => 8 * die + i

/-! ### Targets (R228, R229, R232, R233) -/

/-- Is the core in a restore (R382)? -/
def Core.restoring (c : Core) : Bool := match c.seq.pre with
  | .loadRate | .loading _ | .restored => true
  | _ => false

/-- RODREQ: 5 for a free rod, through placement cycles, a wake and a restore (R228, R229). -/
def State.rodReq (s : State) (rod : Nat) : Nat :=
  let r := s.rod rod
  if r.kernel.isNone || decide (r.placeLeft > 0) || r.pm.state != .on || (coresOf rod).any (fun c => (s.core c).restoring) then 5
  else (coresOf rod).foldl (fun m c => Nat.max m (s.core c).arch.opReq) 0

/-- The panel level (R231). -/
def State.level (s : State) (panel : Nat) : Nat := (rodsOf panel).foldl (fun m r => Nat.max m (s.rod r).clk.point) 0

/-- BENTRY as it acts (R234). -/
def State.bentry (s : State) : Nat := Nat.min (Nat.max s.power.bentry.toNat 4) 64

/-- Is the panel boost-eligible (R232)? -/
def State.eligible (s : State) (panel : Nat) : Bool :=
  let p := s.panel panel
  decide (s.level panel ≤ 5) && s.power.boosten && !p.block && decide (p.p ≥ s.bentry)

/-- Is the panel boosting (R232)? -/
def State.boosting (s : State) (panel : Nat) : Bool :=
  decide (s.level panel > 5) || (rodsOf panel).any fun r => match (s.rod r).clk.change with
    | some c => decide (c.dest > 5)
    | none => false

/-- BOOSTCAP (R232). After the second step of a fall it is 5 until BLOCK clears. -/
def State.boostcap (s : State) (panel : Nat) : Nat :=
  let p := s.panel panel
  if p.fall.isSome then 6
  else if p.block then 5
  else if s.eligible panel || s.boosting panel then (if p.pool then 7 else 6)
  else 5

/-- THCEIL (R236). -/
def State.thceil (s : State) (panel : Nat) : Nat := if (s.panel panel).trip then s.power.thop else 7

/-- The rod's target (R228). -/
def State.target (s : State) (rod : Nat) : Nat :=
  Nat.min (Nat.min (s.rodReq rod) (s.boostcap (rod / 4))) (Nat.min s.power.pkceil (s.thceil (rod / 4)))

/-- Would a rod of the panel have a target of 7 with BOOSTCAP taken as 7, in a panel that may boost (R233)? -/
def State.wants7 (s : State) (panel : Nat) : Bool :=
  let p := s.panel panel
  p.fall.isNone && !p.block && (s.eligible panel || s.boosting panel) &&
    decide (Nat.min s.power.pkceil (s.thceil panel) = 7) && (rodsOf panel).any fun r => decide (s.rodReq r = 7)

/-- Is a rod of the panel at OP7, or in a change to it (R233)? -/
def State.at7 (s : State) (panel : Nat) : Bool :=
  (rodsOf panel).any fun r => decide ((s.rod r).clk.point = 7) || match (s.rod r).clk.change with
    | some c => decide (c.dest = 7)
    | none => false

/-- Is the panel's place no longer used (R233)? In the tick of its grant the raise is still to begin. -/
def State.poolIdle (s : State) (panel : Nat) : Bool :=
  (s.panel panel).pool && !s.at7 panel && decide ((s.panel panel).poolAt < s.tick)

/-- A place that is no longer used is released (R233). -/
def State.poolRelease (s : State) (panel : Nat) : State :=
  if s.poolIdle panel then s.modPanel panel fun p => { p with pool := false } else s

/-- The fall begins when permits are 0 at level 6 or 7 (R232). BLOCK set by an earlier fall keeps another from beginning. -/
def State.fallCheck (s : State) (panel : Nat) : State :=
  let p := s.panel panel
  if p.fall.isNone && !p.block && p.p == 0 && decide (s.level panel ≥ 6) then
    s.modPanel panel fun p => { p with fall := some (s.tick + 28000), claim := none }
  else s

/-! ### The frequency trace (R238) -/

/-- An entry of the panel's trace (Table 12-8). -/
def State.traceEntry (s : State) (rod kind point : Nat) : State :=
  let e := BitVec.ofNat 64 (kind * 2 ^ 63 + rod % 4 * 2 ^ 61 + point * 2 ^ 58 + s.tick % 2 ^ 58)
  s.modPanel (rod / 4) fun p => { p with trace := p.trace.setIfInBounds (p.ftcnt % 256) e, ftcnt := p.ftcnt + 1 }

/-! ### Changes (R227, R237) -/

/-- A relock begins: the bypass clock starts with an edge now, so that 16 whole cycles of it pass; a cycle that is still to run at this
moment is the first. -/
def State.beginRelock (s : State) (rod dest : Nat) : State :=
  let k := (s.rod rod).clk
  let edge := if k.turn = 4 then s.now else k.nextEdge
  let s := s.traceEntry rod 0 k.point
  s.modRod rod fun r => { r with clk := { r.clk with
    change := some ⟨true, dest, s.tick, s.tick + 56⟩, nextEdge := edge } }

/-- May the rod begin a change or a relock? A gated or waking rod makes none, and in SAVE none begins that would still run as the clock
stops (R227, log 26). -/
def Rod.changes (r : Rod) (tick : Nat) : Bool := match r.pm.state with
  | .on | .quiesce => !r.clk.relocking
  | .save => !r.clk.relocking && decide (tick + 56 < r.pm.till)
  | _ => false

/-- Does OP_CHANGE_BEGIN do something on the rod? -/
def State.changeDue (s : State) (rod : Nat) : Bool :=
  let r := s.rod rod
  let t := s.target rod
  r.changes s.tick && match r.clk.change with
    | none => decide (t ≠ r.clk.point)
    | some c => decide (t < c.dest)

/-- OP_CHANGE_BEGIN (R227, R228, R232, R237): a raise begins, and takes the fee if it enters boost; a lowering relocks; a
target that falls abandons a ramp or gives it a nearer destination. -/
def execOpChangeBegin (rod : Nat) (s : State) : Out :=
  if !s.changeDue rod then .next s
  else
    let k := (s.rod rod).clk
    let t := s.target rod
    let p := rod / 4
    .next (match k.change with
    | none =>
      if t < k.point then s.beginRelock rod t
      else
        let s := if t > 5 && s.eligible p && !s.boosting p then s.modPanel p fun q => { q with p := q.p - 4 } else s
        s.modRod rod fun r => { r with clk := { r.clk with change := some ⟨false, t, s.tick, s.tick + settle t⟩ } }
    | some c =>
      if t > k.point then
        (s.modRod rod fun r => { r with clk := { r.clk with
          change := some ⟨false, t, c.start, Nat.max (c.start + settle t) s.tick⟩ } }).poolRelease p
      else
        let s := s.modRod rod fun r => { r with clk := { r.clk with change := none } }
        (if t < k.point then s.beginRelock rod t else s).poolRelease p)

/-- Has the rod's ramp ended (R227)? -/
def State.rampOver (s : State) (rod : Nat) : Bool :=
  let r := s.rod rod
  r.changes s.tick && match r.clk.change with
    | some c => !c.relock && decide (c.till ≤ s.tick)
    | none => false

/-- RAMP_END (R227): the relock into the destination begins. -/
def execRampEnd (rod : Nat) (s : State) : Out :=
  match (s.rod rod).clk.change with
  | some c => if s.rampOver rod then .next (s.beginRelock rod c.dest) else .next s
  | none => .next s

/-- RELOCK_END (R227): the rod runs at its new point, with an edge now; the trace entry follows, and a place that is no
longer used is released. -/
def execRelockEnd (rod : Nat) (s : State) : Out :=
  match (s.rod rod).clk.change with
  | some c =>
    if c.relock && decide (s.tick ≥ c.till) then
      let s := s.modRod rod fun r => { r with clk := { r.clk with point := c.dest, change := none } }
      .next (((s.traceEntry rod 1 c.dest).fallCheck (rod / 4)).poolRelease (rod / 4))
    else .next s
  | none => .next s

/-! ### Permits (R231, R232) -/

/-- The counters of a panel at each tick, before a permit is spent or earned (R231). -/
def State.permitTick (s : State) (panel : Nat) : State :=
  let l := s.level panel
  s.modPanel panel fun p =>
    if l ≤ 5 then { p with d := 0, f := p.f + 1 }
    else { p with f := 0, d := if p.p = 0 then p.d else if l = 7 then p.d + 4 else p.d + 2 }

/-- PERMIT_SPENT (R231). -/
def execPermitSpent (panel : Nat) (s : State) : Out :=
  if (s.panel panel).d ≥ 28000 then
    .next ((s.modPanel panel fun p => { p with d := p.d - 28000, p := p.p - 1 }).fallCheck panel)
  else .next s

/-- BLOCK clears when the permits reach BENTRY (R232). -/
def State.unblock (s : State) (panel : Nat) : State :=
  if decide ((s.panel panel).p ≥ s.bentry) then s.modPanel panel fun p => { p with block := false } else s

/-- PERMIT_EARNED (R231). -/
def execPermitEarned (panel : Nat) (s : State) : Out :=
  if (s.panel panel).f ≥ 28000 then
    .next ((s.modPanel panel fun p => { p with f := 0, p := Nat.min (p.p + 1) 64 }).unblock panel)
  else .next s

/-- BOOST_FALL_SECOND_STEP (R232). -/
def execBoostFallSecondStep (panel : Nat) (s : State) : Out :=
  match (s.panel panel).fall with
  | some t => if t ≤ s.tick then .next (s.modPanel panel fun p => { p with fall := none, block := true }) else .next s
  | none => .next s

/-! ### The boost pools (R233) -/

/-- Places held on a die. -/
def State.poolHeld (s : State) (die : Nat) : Nat := ((panelsOf die).filter fun p => (s.panel p).pool).length

/-- The waiting claim that is next: earliest tick, then lower panel. -/
def State.nextClaim (s : State) (die : Nat) : Option Nat :=
  (panelsOf die).foldl (fun b p => match (s.panel p).claim, b with
    | none, _ => b
    | some _, none => some p
    | some t, some q => if t < ((s.panel q).claim.getD 0) then some p else b) none

/-- POOL_GRANT (R233): a free place goes to the next claim. -/
def execPoolGrant (die : Nat) (s : State) : Out :=
  match s.nextClaim die with
  | some p =>
    if s.poolHeld die < 2 then .next (s.modPanel p fun q => { q with pool := true, poolAt := s.tick, claim := none }) else .next s
  | none => .next s

/-- POOL_CLAIM (R233): granted at once if a place is free and no claim is before it; else it waits. -/
def execPoolClaim (panel : Nat) (s : State) : Out :=
  let p := s.panel panel
  if s.wants7 panel && !p.pool && p.claim.isNone then
    execPoolGrant (panel / 8) (s.modPanel panel fun q => { q with claim := some s.tick })
  else .next s

/-- POOL_WITHDRAW (R233): a claim of a panel that no longer wants a place, and a place that no rod uses. -/
def execPoolWithdraw (panel : Nat) (s : State) : Out :=
  .next ((if s.wants7 panel then s else s.modPanel panel fun p => { p with claim := none }).poolRelease panel)

/-! ### Package cap and thermal trips (R234 to R236) -/

/-- AVGW as it acts. -/
def State.avgw (s : State) : Nat := Nat.min s.power.avgw.toNat 2400
/-- PEAKW as it acts. -/
def State.peakw (s : State) : Nat := Nat.min s.power.peakw.toNat 3000
/-- Sum of the latest 10 samples. -/
def State.sum10 (s : State) : Nat := (s.power.samples.take 10).sum
/-- Sum of the latest 1,000,000 samples. -/
def State.sum1s (s : State) : Nat := s.power.samples.sum

/-- Is a power sample to be taken: one every 1,400 ticks (R235)? -/
def State.sampleDue (s : State) : Bool := decide (1400 * (s.power.taken + 1) ≤ s.tick)

/-- A power sample taken (R235): samples not yet taken count as 0. -/
def State.takeSample (watts : Nat) (s : State) : Out :=
  let s := { s with power := { s.power with samples := watts :: s.power.samples.take 999999, taken := s.power.taken + 1 } }
  let p := s.power
  let overrun := decide (s.sum10 > 10 * s.peakw) || decide (s.sum1s > 1000000 * s.avgw)
  let under := decide (32 * s.sum10 ≤ 310 * s.peakw) && decide (32 * s.sum1s ≤ 31000000 * s.avgw)
  let since := fun (t : Option Nat) (n : Nat) => match t with
    | none => true
    | some u => decide (s.tick ≥ u + n)
  if overrun && decide (p.pkceil > 2) && since p.lastDec 14000 then
    .next { s with power := { p with pkceil := p.pkceil - 1, lastDec := some s.tick, lastChg := some s.tick } }
  else if under && decide (p.pkceil < 7) && since p.lastChg 140000 then
    .next { s with power := { p with pkceil := p.pkceil + 1, lastChg := some s.tick } }
  else .next s

/-- POWER_SAMPLE (R235): the input power is measured when a sample is due. -/
def execPowerSample (watts : Nat) (s : State) : Out := if s.sampleDue then s.takeSample watts else .next s

/-- Does the latest reading call for a toggle of the panel's trip (R236)? -/
def State.tripHolds (s : State) (panel : Nat) : Bool :=
  let p := s.panel panel
  let thr := Nat.min s.power.thr.toNat 480
  if p.trip then decide (p.temp + 12 ≤ thr) else decide (p.temp ≥ thr)

/-- The trip toggles. -/
def State.toggleTrip (s : State) (panel : Nat) : State :=
  s.modPanel panel fun p => { p with trip := !p.trip, lastToggle := some s.tick }

/-- Is a panel's sensor to be read: every 1,400 ticks (R236)? -/
def State.readingDue (s : State) (panel : Nat) : Bool := decide (1400 * ((s.panel panel).readings + 1) ≤ s.tick)

/-- A reading of a panel's sensor, in steps of 0.25 °C (R236). At the end of a dwell THERMAL_DWELL_END toggles the trip. -/
def State.takeReading (panel steps : Nat) (s : State) : Out :=
  let s := s.modPanel panel fun p => { p with temp := steps, readings := p.readings + 1 }
  let free := match (s.panel panel).lastToggle with
    | none => true
    | some t => decide (s.tick > t + 70000)
  let s := if s.tripHolds panel && free then s.toggleTrip panel else s
  if steps ≥ 500 then .next (s.packageCheck 6 0 panel) else .next s

/-- THERMAL_READING (R236): the panel's sensor is read when a reading is due. -/
def execThermalReading (panel steps : Nat) (s : State) : Out :=
  if s.readingDue panel then s.takeReading panel steps else .next s

/-- Is it the end of the panel's dwell, with a condition that holds at the reading there? -/
def State.dwellDue (s : State) (panel : Nat) : Bool :=
  (s.panel panel).lastToggle == some (s.tick - 70000) && decide (s.tick ≥ 70000) && !s.readingDue panel && s.tripHolds panel

/-- THERMAL_DWELL_END (R236). -/
def execThermalDwellEnd (panel : Nat) (s : State) : Out :=
  if s.dwellDue panel then .next (s.toggleTrip panel) else .next s

/-- BOOSTCFG as read (Table 12-3), and a write of it. -/
def State.readBoostcfg (s : State) : BitVec 64 :=
  BitVec.ofNat 64 ((if s.power.boosten then 256 else 0) + s.power.bentry.toNat)
/-- A write of BOOSTCFG. -/
def State.boostcfgWrite (s : State) (v : BitVec 64) : State :=
  let s := { s with power := { s.power with boosten := rbit v 8, bentry := v.truncate 7 } }
  (List.range 16).foldl (fun (s : State) p => s.unblock p) s

/-- PKCAP as read (Table 12-4): means are rounded down. -/
def State.readPkcap (s : State) : BitVec 64 :=
  BitVec.ofNat 64 (s.sum1s / 1000000 % 65536 * 2 ^ 48 + s.sum10 / 10 % 65536 * 2 ^ 32 + s.power.avgw.toNat * 65536 + s.power.peakw.toNat)

/-- THERMCFG as read (Table 12-5). -/
def State.readThermcfg (s : State) : BitVec 64 := BitVec.ofNat 64 (s.power.thop * 1024 + s.power.thr.toNat)

/-- OPSTAT of a core (Table 12-2). -/
def State.opstat (s : State) (core : Nat) : BitVec 64 :=
  let r := rodOf core
  let k := (s.rod r).clk
  let n := panelOf core
  let p := s.panel n
  let b := fun (x : Bool) (i : Nat) => if x then 2 ^ i else 0
  BitVec.ofNat 64 (b p.block 31 + p.p * 2 ^ 24 + b p.trip 23 + s.thceil n * 2 ^ 20 + s.power.pkceil * 2 ^ 17 + b p.fall.isSome 16
    + b p.claim.isSome 15 + b p.pool 14 + b k.relocking 13 + b k.ramping 12 + (s.core core).arch.opReq * 2 ^ 9 + s.rodReq r * 64
    + s.target r * 8 + k.point)

/-! ### Rod power management (R239 to R241) -/

/-- Code of a rod power state (Table 12-10). -/
def RodPower.code : RodPower → Nat
  | .on => 0 | .quiesce => 1 | .save => 2 | .clockGated => 3 | .hold => 4 | .railDown => 5 | .railGated => 6 | .waking => 7

/-- Is the rod held by a kernel or reserved (R239)? -/
def Rod.heldBy (r : Rod) : Bool := r.kernel.isSome || r.reserved.isSome

/-- RPMSTAT of a rod (Table 12-13). -/
def State.rpmstat (s : State) (rod : Nat) : BitVec 64 :=
  let r := s.rod rod
  let b := fun (x : Bool) (i : Nat) => if x then 2 ^ i else 0
  BitVec.ofNat 64 ((s.panel (rod / 4)).temp % 1024 * 4096 + r.clk.point * 512 + b r.heldBy 5 + b r.pm.inrush 4 + b r.pm.refused 3
    + r.pm.state.code)

/-- The command is refused (R239). -/
def Rod.refuse (r : Rod) : Rod := { r with pm := { r.pm with refused := true } }

/-- QUIESCE begins; how long it lasts the spec does not bound (log 3). -/
def State.quiesce (s : State) (rod : Nat) (rail : Bool) : State :=
  let n := Config.choice s.fresh
  let s := { s with fresh := s.fresh + 1 }
  s.modRod rod fun r => { r with pm := { r.pm with
    state := .quiesce, till := s.tick + n, rail := rail, refused := false, wake := none } }

/-- CLOCK_GATE (R239). -/
def execClockGate (rod : Nat) (s : State) : Out :=
  let r := s.rod rod
  if r.heldBy || r.pm.state != .on then .next (s.modRod rod Rod.refuse) else .next (s.quiesce rod false)

/-- RAIL_GATE (R239). -/
def execRailGate (rod : Nat) (s : State) : Out :=
  let r := s.rod rod
  if r.heldBy then .next (s.modRod rod Rod.refuse)
  else match r.pm.state with
    | .on => .next (s.quiesce rod true)
    | .clockGated => .next (s.modRod rod fun r => { r with pm := { r.pm with
        state := .hold, till := s.tick + 2800, rail := true, refused := false, wake := none } })
    | _ => .next (s.modRod rod Rod.refuse)

/-- QUIESCE_END (R239): dirty lines are written back, the slice's lines and the L1s of the cores are invalidated. -/
def execQuiesceEnd (rod : Nat) (s : State) : Out :=
  let r := s.rod rod
  if r.pm.state == .quiesce && decide (r.pm.till ≤ s.tick) then
    let s := (r.slice.lines.filter (·.dirty)).foldl (fun (s : State) l => s.writeBack rod l) s
    let s := s.modRod rod fun r => { r with
      pm := { r.pm with state := .save, till := s.tick + 2800 }, slice := { r.slice with lines := [] } }
    .next ((coresOf rod).foldl (fun (s : State) c => s.modCore c fun co => { co with l1 := [], l1Wait := [] }) s)
  else .next s

/-- The restore of a wake begins: the rod's clock runs at OP5 from now, and enters ON 5,600 ticks on (R240). -/
def Rod.restore (r : Rod) (now : Nat) : Rod :=
  { r with
    pm := { r.pm with state := .waking, till := now / 360 + 5600, inrush := false, ramping := false, restoring := true },
    clk := { r.clk with point := 5, change := none, nextEdge := now, turn := 4 } }

/-- A wake as it acts in a state at rest or in HOLD (R240). -/
def Rod.wakeNow (r : Rod) (now : Nat) : Rod := match r.pm.state with
  | .clockGated | .hold => r.restore now
  | .railGated => { r with pm := { r.pm with state := .waking, inrush := true } }
  | _ => r

/-- A wake of a rod (R240). -/
def State.wakeRod (s : State) (rod : Nat) : State :=
  s.modRod rod fun r => match r.pm.state with
    | .on | .waking => r
    | _ => { r with pm := { r.pm with wake := some (r.pm.wake.getD s.tick) } }.wakeNow s.now

/-- A rod's clock stops; a ramp that has not ended goes with it. -/
def Rod.stopClock (r : Rod) : Rod := { r with clk := { r.clk with turn := 4, change := none } }

/-- A state entered at rest, on which a wake that waits then acts. -/
def Rod.enter (r : Rod) (st : RodPower) (till now : Nat) : Rod :=
  let r := { r with pm := { r.pm with state := st, till := till } }.stopClock
  if r.pm.wake.isSome then r.wakeNow now else r

/-- Is a rod between two of its cycles? -/
def Rod.between (r : Rod) : Bool := r.clk.turn == 4

/-- SAVE_STATE_END (R239): a cycle that has begun is charged before the clock stops. -/
def execSaveStateEnd (rod : Nat) (s : State) : Out :=
  let r := s.rod rod
  if r.pm.state == .save && r.between && decide (r.pm.till ≤ s.tick) then
    .next (s.modRod rod fun r => r.enter (if r.pm.rail then .hold else .clockGated) (s.tick + 2800) s.now)
  else .next s

/-- HOLD_END (R239). -/
def execHoldEnd (rod : Nat) (s : State) : Out :=
  let r := s.rod rod
  if r.pm.state == .hold && decide (r.pm.till ≤ s.tick) then
    .next (s.modRod rod fun r => { r with pm := { r.pm with state := .railDown, till := s.tick + 5600 } })
  else .next s

/-- RAIL_DOWN_END (R239). -/
def execRailDownEnd (rod : Nat) (s : State) : Out :=
  let r := s.rod rod
  if r.pm.state == .railDown && decide (r.pm.till ≤ s.tick) then
    .next (s.modRod rod fun r => r.enter .railGated 0 s.now)
  else .next s

/-- WAKE (R240, R163): the wake register of a core is written. -/
def execWake (core : Nat) (s : State) : Out :=
  .next ((s.wakeRod (rodOf core)).modCore core fun c => { c with seq := { c.seq with wakeFlag := true } })

/-- The rods of a die. -/
def rodsOfDie (die : Nat) : List Nat := (List.range 32).map fun i => 32 * die + i

/-- The rod that the in-rush arbiter of a die admits next: earliest wake, then lower number (R240). -/
def State.nextInrush (s : State) (die : Nat) : Option Nat :=
  if ((rodsOfDie die).filter fun r => (s.rod r).pm.ramping).length ≥ 4 then none
  else (rodsOfDie die).foldl (fun b r =>
    if (s.rod r).pm.inrush then match b with
      | none => some r
      | some q => if ((s.rod r).pm.wake.getD 0) < ((s.rod q).pm.wake.getD 0) then some r else b
    else b) none

/-- INRUSH_ADMIT (R240). -/
def execInrushAdmit (die : Nat) (s : State) : Out :=
  match s.nextInrush die with
  | some rod => .next (s.modRod rod fun r => { r with pm := { r.pm with
      inrush := false, ramping := true, till := s.tick + 11200 } })
  | none => .next s

/-- INRUSH_RAMP_END (R240). -/
def execInrushRampEnd (rod : Nat) (s : State) : Out :=
  let r := s.rod rod
  if r.pm.ramping && decide (r.pm.till ≤ s.tick) then .next (s.modRod rod fun r => r.restore s.now) else .next s

/-- WAKE_RESTORE_END (R240): the rod is ON at OP5. -/
def execWakeRestoreEnd (rod : Nat) (s : State) : Out :=
  let r := s.rod rod
  if r.pm.restoring && decide (r.pm.till ≤ s.tick) then
    .next (s.modRod rod fun r => { r with pm := { r.pm with state := .on, till := 0, restoring := false, wake := none } })
  else .next s

/-- A write of RPMCMD (Table 12-12). -/
def State.rpmcmdWrite (s : State) (v : BitVec 64) : Out :=
  match rfield v 0 2 with
  | 1 => execClockGate s.regs.rpmsel.toNat s
  | 2 => execRailGate s.regs.rpmsel.toNat s
  | _ => .next s

end Sys2Proof.Machine
end

