-- ==== Sys2Proof/Machine/Matrix.lean ====
section
/-!
DEFINITION. The matrix engine and the gather unit (R191 to R206): the M-class groups MMA, MMAG and CTL, with
MATRIX_OP_START and MATRIX_OP_COMPLETE.
-/
namespace Sys2Proof.Machine

/-! ### Engine configuration (Table 10-1) -/

/-- KPOS. -/
def mKpos (c : BitVec 64) : Nat := rfield c 0 9
/-- NPOS. -/
def mNpos (c : BitVec 64) : Nat := rfield c 10 8
/-- MMASK. -/
def mMmask (c : BitVec 64) : Nat := rfield c 18 6
/-- NMASK. -/
def mNmask (c : BitVec 64) : Nat := rfield c 24 6
/-- AEXP. -/
def mAexp (c : BitVec 64) : Nat := rfield c 30 14
/-- BEXP. -/
def mBexp (c : BitVec 64) : Nat := rfield c 44 14
/-- GLAST. -/
def mGlast (c : BitVec 64) : BitVec 6 := c.extractLsb' 58 6

/-- KPOS after an array operation (R194). -/
def mcfgStep (c : BitVec 64) : BitVec 64 :=
  if rbit c 9 then setBits c 0x1FF#64 (BitVec.ofNat 64 ((mKpos c + 1) % 512)) else c

/-! ### Issue (R191) -/

/-- Is this an array operation? -/
def MKind.isArray : MKind → Bool
  | .mma _ _ _ _ | .mmag _ _ _ _ => true
  | _ => false

/-- Does an operation name tile `t`? -/
def MKind.names (t : BitVec 4) : MKind → Bool
  | .mma _ a b _ => t = a || t = b
  | .mmag a _ b _ => t = a || t = b
  | _ => false

/-- The tile of an operation's left operand or index row. -/
def MKind.left : MKind → BitVec 4
  | .mma _ _ a _ => a
  | .mmag _ _ t _ => t
  | _ => 0

/-- An M slot enters the queue (R191). -/
def matrixForm (kind : MKind) (kout kin : BitVec 4) (s : State) : Out :=
  let id := s.nextOp
  let t := s.rdTok kin
  .next ((s.newOp .other kout).onMe fun c =>
    let c := match kind with
      | .mma _ a _ _ => c.unmark a
      | .mmag a _ _ _ => c.unmark a
      | _ => c
    { c with eng := { c.eng with mq := c.eng.mq ++ [⟨id, kind, t, c.cyc, c.latch.tiles.getD kind.left.toNat {}⟩] } })

/-- MMA (R199). -/
def execMma (tacc ta : BitVec 4) (db : BitVec 6) (kout kin : BitVec 4) (s : State) : Out :=
  matrixForm (.mma 0 tacc ta db) kout kin s
/-- MMAZ (R199). -/
def execMmaz (tacc ta : BitVec 4) (db : BitVec 6) (kout kin : BitVec 4) (s : State) : Out :=
  matrixForm (.mma 1 tacc ta db) kout kin s
/-- MMAT (R199). -/
def execMmat (tacc ta : BitVec 4) (db : BitVec 6) (kout kin : BitVec 4) (s : State) : Out :=
  matrixForm (.mma 2 tacc ta db) kout kin s
/-- MMAG (R201): the row of the index tile is that of the cursor at issue. -/
def execMmag (tacc : BitVec 4) (vidx db : BitVec 6) (kout kin : BitVec 4) (s : State) : Out :=
  matrixForm (.mmag tacc (s.me.rdC (vCur vidx)).toNat (vTile vidx) db) kout kin s
/-- MGSET (R195): x[xs] is read at issue. -/
def execMgset (dg : BitVec 6) (xs : BitVec 5) (kout kin : BitVec 4) (s : State) : Out :=
  matrixForm (.mgset dg (s.rx xs)) kout kin s
/-- MDRAIN (R202). -/
def execMdrain (kout kin : BitVec 4) (s : State) : Out := matrixForm .mdrain kout kin s

/-! ### Operands (R196, R200, R201) -/

/-- What an operation reads its scratchpad operands through: a byte of the scratchpad as its granule sees it (R203). -/
def MRun.byte (r : MRun) (now : Mem) (a : Nat) : Byte :=
  let hist := r.snaps ++ [now]
  (hist.getD (Config.choiceAt 5 r.id (a / 64) % hist.length) now).read a

/-- The code of element `(i0, i1)` of a scratchpad last; zero beyond its extents. -/
def mElem (rd : Nat → Byte) (l : Last) (i0 i1 : Nat) : Option Nat :=
  if i0 < l.ext 0 && i1 < l.ext 1 then
    let b := l.bitOff (i0 + l.ext 0 * i1)
    let n := (b % 8 + l.width + 7) / 8
    some (leNat ((List.range n).map fun k => rd (l.base + b / 8 + k)) / 2 ^ (b % 8) % 2 ^ l.width)
  else none

/-- A value of an operand element: a block element takes the pair at a scratchpad offset (R196). -/
def mVal (rd : Nat → Byte) (size : Nat) (t : ElemTy) (code pair : Nat) : FVal :=
  match dbOf t with
  | some f =>
    let p := fun i => if i < size then (rd i).toNat else 0
    dbDecode f code (p pair) (p (pair + 1))
  | none => elemVal t code

/-- Products per operation (Table 10-2): K and the accumulator type. -/
def mTypes (a b : ElemTy) : Option (Nat × ElemTy) :=
  match a, b with
  | .bf16, .bf16 | .fp16, .fp16 => some (32, .fp32)
  | .db8, .db8 => some (64, .fp32)
  | .db4, .db4 => some (128, .fp32)
  | .int8, .int8 | .int8, .uint8 | .uint8, .int8 | .uint8, .uint8 => some (64, .int32)
  | _, _ => none

/-- Does a last serve the engine (R197, R200)? -/
def Last.matrixOk (l : Last) (gather : Bool) : Bool :=
  l.space = 1 && (l.rank = 2 || (!gather && l.rank = 1))

/-- Zero of an operand type. -/
def mZero (_t : ElemTy) : FVal := .fin false 0

/-- B(k, n) (R196). -/
def mB (rd : Nat → Byte) (size : Nat) (cfg : BitVec 64) (l : Last) (kk k n : Nat) : FVal :=
  let i0 := mNpos cfg * 64 + n
  let i1 := mKpos cfg * kk + k
  match mElem rd l i0 i1 with
  | some c => mVal rd size l.ty c (mBexp cfg * 128 + 2 * ((i0 + l.ext 0 * i1) / 32))
  | none => mZero l.ty

/-- An element of a tile row as an operand; padded rows read zero. -/
def mTileElem (t : Tile) (row j : Nat) : Nat := if row < t.rowCount then rowElem t.ty (t.rows.getD row 0) j else 0

/-- A(m, k) of MMA and MMAZ (`op` 0 and 1) and of MMAT (R196). -/
def mA (rd : Nat → Byte) (size : Nat) (cfg : BitVec 64) (op : Nat) (t : Tile) (kk m k : Nat) : FVal :=
  if op = 2 then
    let r0 := if kk = 32 then 32 * (mKpos cfg % 2) else 0
    elemVal t.ty (mTileElem t (r0 + k) m)
  else
    let j := mKpos cfg % 4 * kk + k
    if m < t.rowCount then mVal rd size t.ty (mTileElem t m j) (mAexp cfg * 128 + 32 * m + 2 * (j / 32)) else mZero t.ty

/-- A(m, k) of MMAG for a row that fetches row `tok` of the gather source (R201). -/
def mG (rd : Nat → Byte) (size : Nat) (cfg : BitVec 64) (l : Last) (kk tok k : Nat) : FVal :=
  let i0 := mKpos cfg * kk + k
  match mElem rd l i0 tok with
  | some c => mVal rd size l.ty c (mAexp cfg * 128 + 2 * ((i0 + l.ext 0 * tok) / 32))
  | none => mZero l.ty

/-- One output element: the old value, and the K products, rounded or saturated once (R37, R39, R199). -/
def mOut (acc : ElemTy) (old : Nat) (kk : Nat) (a b : Nat → FVal) : Nat × Flags :=
  if acc = .int32 then
    let s : Int := (List.range kk).foldl (fun z k => z + ((a k).mul (b k)).val.toInt / 2 ^ 298) 0
    satInt .int32 (intVal .int32 old + s)
  else
    matSum .rne (⟨(elemVal .fp32 old).wide, false⟩ :: (List.range kk).map fun k => (a k).mul (b k))

/-- One output row: masked columns and rows are +0 (R41, R199). -/
def mRow (cfg : BitVec 64) (acc : ElemTy) (m : Nat) (old : Nat → Nat) (kk : Nat) (a : Nat → FVal) (b : Nat → Nat → FVal) :
    Row × Flags :=
  let es := (List.range 64).map fun n =>
    if m ≥ 64 - mMmask cfg || n ≥ 64 - mNmask cfg then (0, 0) else mOut acc (old n) kk a (fun k => b k n)
  (packElems 32 (es.map (·.1)), flagsAll (es.map (·.2)))

/-- An element of an index row: valid, token and tag (R201). -/
def idxTag (idx : Row) (m : Nat) : Tag :=
  let g := idx.extractLsb' (32 * m) 32
  { token := g.extractLsb' 0 12, expert := g.extractLsb' 12 8, gen := g.extractLsb' 20 8, valid := g.getLsbD 28 }

/-- The gather count G (R201): the most 64-byte granules read from one of 32 banks; an element may lie in two granules. -/
def gatherCount (cfg : BitVec 64) (l : Last) (kk : Nat) (idx : Row) : Nat :=
  let gran := (List.range 64).flatMap fun m =>
    let g := idxTag idx m
    if !g.valid || decide (g.token.toNat ≥ l.ext 1) then []
    else ((List.range kk).flatMap fun k =>
      let i0 := mKpos cfg * kk + k
      let b := l.bitOff (i0 + l.ext 0 * g.token.toNat)
      if i0 < l.ext 0 then [(l.base + b / 8) / 64, (l.base + (b + l.width - 1) / 8) / 64] else []).eraseDups
  (List.range 32).foldl (fun best b => Nat.max best (gran.filter fun e => e % 32 == b).length) 0

/-! ### Start and completion (R191 to R193, R199, R201) -/

/-- The tick by which `n` cycles of OP0 have passed from now (R192). -/
def State.opZeroBy (s : State) (n : Nat) : Nat := s.tick + (n * 1260 + 359) / 360

/-- The head of a core's queue is refused: it leaves, and KPOS still advances after an array operation (R193). -/
def Core.matrixRefuse (c : Core) (o : MOp) (rest : List MOp) (reason : Nat) : Core :=
  let c := { c with eng := { c.eng with mq := rest } }
  let c := if o.kind.isArray then c.modArch fun a => { a with ctl := { a.ctl with mcfg := mcfgStep a.ctl.mcfg } } else c
  c.refuse o.id reason

/-- An array operation starts: it reads its tiles, holds the array for D cycles and completes D + 6 after its start. -/
def Core.arrayStart (c : Core) (o : MOp) (rest : List MOp) (d : Nat) (acc left : Tile) (idx : Row) (bad : Bool) (p : Nat) : Core :=
  let run : MRun := { id := o.id, kind := o.kind, doneCyc := c.cyc + d + 6, cfg := c.arch.ctl.mcfg, acc := acc,
                      left := left, idx := idx, mismatch := bad }
  let c := { c with eng := { c.eng with mq := rest, mrun := c.eng.mrun ++ [run], arrayFree := c.cyc + d } }
  (c.modArch fun a => { a with ctl := { a.ctl with mcfg := mcfgStep a.ctl.mcfg } }).promise o.id p

/-- Can the head of a core's queue start or be refused now (R191)? DESIGN CHOICE: an array operation whose kin reads refused is refused at
the head at once, whether or not the array is free: R193 gives no time (log 23). -/
def Core.matrixReady (c : Core) : Bool :=
  match c.eng.mq with
  | [] => false
  | o :: _ => c.offering && decide (o.issued < c.cyc) && c.arch.tokEnded o.kin
      && (!o.kind.isArray || decide (c.eng.arrayFree ≤ c.cyc) || c.arch.tokState o.kin == .refused)

/-- May a matrix operation start in its place in program order (Table 15-5, R191)? It waits for the FENCEs before it and for an earlier row
that is to be written. What is on its way, or waits, can be seen to come after it by operations of its core that move bytes alone: for the
others, the accesses that follow an observed completion are kept behind both. -/
def State.matrixOrder (s : State) (core id : Nat) : Bool :=
  let e := (s.core core).eng
  s.fencesMet core id && !e.memq.any fun o => decide (o.id < id) && !o.performed &&
    (o.writesRow || (e.moving && (o.kind.isStore || (o.kind.isLater && !o.kind.isTake) || o.acq || o.egate.any fun g => decide (g ≤ id))))

/-- Does the head of a core's queue start or is it refused now? -/
def State.matrixGo (s : State) (core : Nat) : Bool :=
  (s.core core).matrixReady && (s.core core).eng.mq.head?.any fun o => (s.forceMoving core o.id).matrixOrder core o.id

/-- MATRIX_OP_START (R191 to R198, R200, R201). -/
def execMatrixOpStart (core : Nat) (s : State) : Out :=
  if !s.matrixGo core then .next s
  else match (s.core core).eng.mq with
  | [] => .next s
  | o :: rest =>
    let s := s.forceMoving core o.id
    let c := s.core core
    let put : Core → Out := fun c => .next (s.setCore core c)
    if c.arch.tokState o.kin == .refused then put (c.matrixRefuse o rest 1)
    else match o.kind with
    | .mgset d x =>
      -- The operations behind it reach the head in the next cycle.
      let rest := rest.map fun m => { m with issued := Nat.max m.issued c.cyc }
      let c := { c with eng := { c.eng with mq := rest } }
      let c := c.modArch fun a => { a with ctl := { a.ctl with mcfg := d ++ (x.extractLsb' 0 58 : BitVec 58) } }
      put ((c.promise o.id s.tick).complete o.id s.tick 0)
    | .mdrain =>
      let before := (c.eng.mrun.filter fun r => decide (r.id < o.id)).map (·.id)
      let p := before.foldl (fun m i => match c.arch.ops.find? fun t => t.id == i with
        | some t => Nat.max m (t.promise.getD 0)
        | none => m) s.tick
      let c := (c.promise o.id p)
      if before.isEmpty then put (({ c with eng := { c.eng with mq := rest } }).complete o.id s.tick 0)
      else
        let run : MRun := { id := o.id, kind := .mdrain, doneCyc := c.cyc, cfg := 0, after := before }
        put { c with eng := { c.eng with mq := rest, mrun := c.eng.mrun ++ [run] } }
    | .mma op tacc _ db =>
      let l := s.last core db
      if !l.matrixOk false then put (c.matrixRefuse o rest 2)
      else
        let acc := c.arch.tiles.getD tacc.toNat {}
        let left := o.left
        let bad := match mTypes left.ty l.ty with
          | some (_, t) => !(left.conf && acc.isTy t) || (op == 2 && isDbTy left.ty)
          | none => true
        put (c.arrayStart o rest 32 acc left 0 bad (s.opZeroBy 38))
    | .mmag tacc vrow _ db =>
      let l := s.last core db
      let g := s.last core (mGlast c.arch.ctl.mcfg)
      if !l.matrixOk false || !g.matrixOk true then put (c.matrixRefuse o rest 2)
      else
        let acc := c.arch.tiles.getD tacc.toNat {}
        let it := o.left
        let idx := if vrow < it.rowCount then it.rows.getD vrow 0 else 0
        match mTypes g.ty l.ty with
        | some (kk, t) =>
          if it.isTy .int32 && acc.isTy t then
            let d := Nat.max 32 (gatherCount c.arch.ctl.mcfg g kk idx)
            put (c.arrayStart o rest d acc {} idx false (s.opZeroBy (d + 6)))
          else put (c.arrayStart o rest 32 acc {} idx true (s.opZeroBy 38))
        | none => put (c.arrayStart o rest 32 acc {} idx true (s.opZeroBy 38))

/-- The tile and flags that an array operation leaves (R198, R199, R201). -/
def State.matrixResult (s : State) (core : Nat) (r : MRun) : Tile × Flags :=
  let c := s.core core
  let rd := r.byte c.spad
  let size := c.spadSize
  if r.mismatch then
    (if r.acc.conf then { r.acc with rows := r.acc.rows.map fun _ => 0 } else r.acc, flagNV)
  else match r.kind with
  | .mma op _ _ db =>
    let l := s.last core db
    let kk := ((mTypes r.left.ty l.ty).getD (32, .fp32)).1
    let rows := r.acc.rows.mapIdx fun m old =>
      if m < r.acc.nrows then
        mRow r.cfg r.acc.ty m (fun n => if op = 1 then 0 else rowElem r.acc.ty old n) kk (mA rd size r.cfg op r.left kk m)
          (fun k n => mB rd size r.cfg l kk k n)
      else (old, (mRow r.cfg r.acc.ty m (fun _ => 0) kk (mA rd size r.cfg op r.left kk m)
        (fun k n => mB rd size r.cfg l kk k n)).2)
    ({ r.acc with rows := rows.map (·.1) }, flagsAll (rows.toList.map (·.2)))
  | .mmag _ _ _ db =>
    let l := s.last core db
    let g := s.last core (mGlast r.cfg)
    let kk := ((mTypes g.ty l.ty).getD (32, .fp32)).1
    let rows := r.acc.rows.mapIdx fun m old =>
      let e := idxTag r.idx m
      let tag := r.acc.tags.getD m {}
      if !e.valid then (old, tag, 0)
      else
        let keep := !(r.acc.tent && tag.valid && tag != e)
        let v := mRow r.cfg r.acc.ty m (fun n => if keep && m < r.acc.nrows then rowElem r.acc.ty old n else 0) kk
          (mG rd size r.cfg g kk e.token.toNat) (fun k n => mB rd size r.cfg l kk k n)
        if m < r.acc.nrows then (v.1, (if r.acc.tent then e else tag), v.2) else (old, tag, v.2)
    ({ r.acc with rows := rows.map (·.1), tags := rows.map (·.2.1) }, flagsAll (rows.toList.map (·.2.2)))
  | _ => (r.acc, 0)

/-- The accumulator of a started operation. -/
def MKind.acc : MKind → BitVec 4
  | .mma _ t _ _ => t
  | .mmag t _ _ _ => t
  | _ => 0

/-- The first started operation of a core that completes in its present cycle (R191, R202). -/
def Core.matrixDone (c : Core) : Option MRun :=
  c.eng.mrun.find? fun r => match r.kind with
    | .mdrain => r.after.all fun i => !c.eng.mrun.any fun q => q.id == i
    | _ => decide (r.doneCyc ≤ c.cyc)

/-- MATRIX_OP_COMPLETE (R191): rows, tags, flags and token at once. -/
def execMatrixOpComplete (core : Nat) (s : State) : Out :=
  match (s.core core).matrixDone with
  | none => .next s
  | some r =>
    let v := s.matrixResult core r
    .next (s.modCore core fun c =>
      let c := { c with eng := { c.eng with mrun := c.eng.mrun.filter fun q => q.id != r.id } }
      let c := if r.kind.isArray then
          (c.modArch fun a => { a with tiles := a.tiles.setIfInBounds r.kind.acc.toNat v.1 }).raiseNow v.2
        else c
      c.complete r.id s.tick 0)

end Sys2Proof.Machine
end

