-- ==== Sys2Proof/Machine/Spec.lean ====
section
/-!
DEFINITION. The predictor and the resolve unit (R350 to R366): the PRED and SPEC groups, with SPEC_COMPLETE.
-/
namespace Sys2Proof.Machine

/-! ### The predictor (R350 to R357) -/

/-- Rotation left by 3 within 12 bits, and the exclusive or with byte `i` of the history, for `n` bytes (R352). -/
def predGo (h : Word) : Nat → Nat → BitVec 12 → BitVec 12
  | 0, _, x => x
  | n + 1, i, x => predGo h n (i + 1) (x.rotateLeft 3 ^^^ (h.extractLsb' (8 * i) 8).zeroExtend 12)

/-- The entry of a history word under a configuration (R352). -/
def predIdx (cfg : BitVec 64) (h : Word) : BitVec 12 := predGo h (rfield cfg 12 3 + 1) 0 (cfg.extractLsb' 0 12)

/-- A read of an entry of the acting core (R391): an entry whose parity fails reads as all free, is written as zeros, and counts as a
corrected SRAM error. -/
def State.readPred (s : State) (idx : BitVec 12) : (PredSlot × PredSlot) × State :=
  if s.me.predBad.contains idx.toNat then
    (({}, {}), (s.onMe fun c => { c with
        pred := c.pred.setIfInBounds idx.toNat ({}, {}), predBad := c.predBad.filter (· != idx.toNat) }).countCorrected false
      { unit := s.act, domain := s.regs.domain.toNat })
  else (s.me.pred.getD idx.toNat ({}, {}), s)

/-- The expert that a slot of an entry shows: none where both slots are free (Table 19-9). -/
def predShown (e : PredSlot × PredSlot) (p : PredSlot) : Nat := if e.1.conf = 0 ∧ e.2.conf = 0 then 0 else p.expert.toNat

/-- PLOOK (R354): the table and PREDCFG as they stood before the bundle; the result lands one cycle later. -/
def execPlook (xd xa : BitVec 5) (s : State) : Out :=
  let cfg := s.me.latch.ctl.predcfg
  let idx := predIdx cfg (s.rx xa)
  let r := s.readPred idx
  let e := r.1
  let t := Nat.max (rfield cfg 16 2) 1
  let rep := fun p : PredSlot => if p.conf.toNat ≥ t then 1 else 0
  xHeld xd (BitVec.ofNat 64 (predShown e e.1 * 2 ^ 12 + rep e.1 * 2 ^ 28 + predShown e e.2 * 2 ^ 32 + rep e.2 * 2 ^ 40
    + e.1.conf.toNat * 2 ^ 41 + e.2.conf.toNat * 2 ^ 43 + idx.toNat * 2 ^ 48)) r.2

/-- One slot's confidence after training against the actual experts (R355). -/
def PredSlot.train (p : PredSlot) (a : List (BitVec 8)) : PredSlot :=
  if p.conf = 0 then p
  else if a.contains p.expert then { p with conf := if p.conf = 3 then 3 else p.conf + 1 }
  else { p with conf := p.conf - 1 }

/-- One actual expert takes a free slot when none holds it (R355). -/
def predTake (e : PredSlot × PredSlot) (a : BitVec 8) : PredSlot × PredSlot :=
  if (e.1.conf != 0 && e.1.expert == a) || (e.2.conf != 0 && e.2.expert == a) then e
  else if e.1.conf = 0 then (⟨a, 1⟩, e.2)
  else if e.2.conf = 0 then (e.1, ⟨a, 1⟩)
  else e

/-- PTRAIN (R355), in slot order, under the old configuration (R357). -/
def execPtrain (xa xb : BitVec 5) (s : State) : Out :=
  let idx := predIdx s.me.latch.ctl.predcfg (s.rx xa)
  let w := s.rx xb
  let a := (if w.getLsbD 8 then [(w.extractLsb' 0 8 : BitVec 8)] else []) ++ (if w.getLsbD 24 then [w.extractLsb' 16 8] else [])
  let r := s.readPred idx
  let e := r.1
  .next (r.2.onMe fun c =>
    { c with pred := c.pred.setIfInBounds idx.toNat (a.foldl predTake (e.1.train a, e.2.train a)) })

/-- The table all zeros (R350). -/
def Core.clearPred (c : Core) : Core := { c with pred := Vector.replicate 4096 ({}, {}), predBad := [] }

/-- PCLR (R356). -/
def execPclr (s : State) : Out := .next (s.onMe Core.clearPred)

/-- A write of PREDCFG (Table 19-1). -/
def Core.writePredcfg (c : Core) (v : Word) : Core := c.modArch fun a => { a with ctl := { a.ctl with predcfg := v &&& 0x37FFF#64 } }

/-- PCFG (R356). -/
def execPcfg (xa : BitVec 5) (s : State) : Out := .next (s.onMe fun c => c.writePredcfg (s.rx xa))

/-! ### The resolve unit (R359 to R366) -/

/-- A SPEC operation starts: `n` cycles to completion, its tiles busy, its register interlocked. -/
def Core.startSpec (c : Core) (n : Nat) (o : SpecOp) : Core :=
  let c := match o.out with
    | some (xd, _) => c.interlock xd true
    | none => c
  { c with eng := { c.eng with spec := some { o with id := c.uid, doneCyc := c.cyc + n } }, uid := c.uid + 1 }

/-- The missing list emptied (R360). -/
def Core.noMissing (c : Core) : Core :=
  { c with eng := { c.eng with resolve := { c.eng.resolve with missing := [] } } }

/-- A RESOLVE names a routing tile and a base: marks of another tile or base are cleared and belong to none (R361). -/
def Core.nameMarks (c : Core) (names : BitVec 4 × Nat) : Core :=
  if c.eng.resolve.owner = some names then c
  else { c with eng := { c.eng with resolve := { c.eng.resolve with owner := none, marks := 0 } } }

/-- The speculation fate (R360). -/
def specFate (n : Nat) (tiles : List (BitVec 4)) (xd : Option (BitVec 5)) (s : State) : Out :=
  .next (s.onMe fun c => c.noMissing.startSpec n
    { id := 0, doneCyc := 0, tiles := tiles, out := xd.map fun r => (r, 0), flags := flagNV })

/-- A tile as a SPEC slot reads it: no result to it is in flight (R359). -/
def State.specTile (s : State) (t : BitVec 4) : Tile := s.me.latch.tiles.getD t.toNat {}

/-- The rows of a tile with valid tags, as a mask. -/
def Tile.tagged (t : Tile) : BitVec 64 :=
  BitVec.ofNat 64 ((List.range 64).foldl (fun m i => if (t.tags.getD i {}).valid then m + 2 ^ i else m) 0)

/-- A row after adding `w × v` to each element, or `v` where there is no weight (R363, R365). -/
def specAdd (dst src : ElemTy) (old v : Row) (w : Option FVal) : Row × Flags :=
  let es := (List.range 64).map fun n =>
    let o := rowElem dst old n
    let x := rowElem src v n
    if dst = .int32 then satInt .int32 (intVal .int32 o + intVal .int32 x)
    else match w with
      | some w => ffma .fp32 (FFmt.fp32.decode o) w (elemVal src x)
      | none => fadd .fp32 (FFmt.fp32.decode o) (elemVal src x)
  (packElems 32 (es.map (·.1)), flagsAll (es.map (·.2)))

/-- What RESOLVE has done so far: rows and flags of the destination, marks, rows squashed and confirmed. -/
structure Resolving where
  rows : Vector Row 64
  flags : Flags
  marks : BitVec 512
  sq : Nat
  cf : Nat
  deriving DecidableEq, Repr, Inhabited

/-- The unmarked entry of a routing row that names a pair (R363). -/
def routeMatch (route : Row) (r : Nat) (marks : BitVec 512) (g : Tag) : Option Nat :=
  (List.range 8).find? fun i =>
    let id := rowElem .int32 route i
    decide (id < 2 ^ 31) && id % 256 == g.expert.toNat && id / 256 % 256 == g.gen.toNat && !marks.getLsbD (8 * r + i)

/-- One tentative row confirmed or squashed (R363). -/
def resolveRow (dst tent route : Tile) (base : Nat) (w : Resolving) (m : Nat) : Resolving :=
  let g := tent.tags.getD m {}
  if !g.valid then w
  else
    let r := g.token.toNat - base
    let row := route.rows.getD r 0
    match if base ≤ g.token.toNat && r < route.rowCount then routeMatch row r w.marks g else none with
    | none => { w with sq := w.sq + 1 }
    | some j =>
      let w := { w with marks := w.marks ||| BitVec.ofNat 512 (2 ^ (8 * r + j)), cf := w.cf + 1 }
      if r < dst.rowCount then
        let v := if m < tent.rowCount then tent.rows.getD m 0 else 0
        let a := specAdd .fp32 tent.ty (w.rows.getD r 0) v (some (FFmt.fp32.decode (rowElem .fp32 row (8 + j))))
        { w with rows := w.rows.setIfInBounds r a.1, flags := w.flags ||| a.2 }
      else w

/-- The missing list of a routing tile (R363). -/
def missingList (route : Tile) (base : Nat) (marks : BitVec 512) : List Tag :=
  (List.range route.rowCount).flatMap fun r => (List.range 8).filterMap fun i =>
    let id := rowElem .int32 (route.rows.getD r 0) i
    if id < 2 ^ 31 && !marks.getLsbD (8 * r + i) then
      some { token := BitVec.ofNat 12 (base + r), expert := BitVec.ofNat 8 id, gen := BitVec.ofNat 8 (id / 256), valid := true }
    else none

/-- RESOLVE (R363). -/
def execResolve (tdst ttent : BitVec 4) (vroute : BitVec 6) (xd : BitVec 5) (s : State) : Out :=
  let t := vTile vroute
  let base := 64 * (s.me.rdC (vCur vroute)).toNat
  let dst := s.specTile tdst
  let tent := s.specTile ttent
  let route := s.specTile t
  let tiles := [tdst, ttent, t]
  if !tent.tent || !dst.isTy .fp32 || dst.tent || tdst = ttent || !(route.isTy .int32 || route.isTy .fp32) then
    specFate 72 tiles (some xd) (s.onMe fun c => c.nameMarks (t, base))
  else
    .next (s.onMe fun c =>
      let c := ((c.unmark tdst).unmark ttent).nameMarks (t, base)
      let marks := c.eng.resolve.marks
      let w := (List.range 64).foldl (resolveRow dst tent route base) ⟨dst.rows, 0, marks, 0, 0⟩
      let list := missingList route base w.marks
      let c := { c with eng := { c.eng with resolve := { owner := some (t, base), marks := w.marks, missing := list } } }
      c.startSpec 72
        { id := 0, doneCyc := 0, tiles := tiles, dst := some (tdst, w.rows), tent := some (ttent, tent.tagged),
          out := some (xd, BitVec.ofNat 64 (w.sq + w.cf * 65536 + list.length * 2 ^ 32)), flags := w.flags })

/-- RLIST (R364). -/
def execRlist (xd : BitVec 5) (s : State) : Out :=
  .next (s.onMe fun c =>
    match c.eng.resolve.missing with
    | [] => c.startSpec 2 { id := 0, doneCyc := 0, tiles := [], out := some (xd, 0) }
    | g :: rest =>
      let v := g.token.toNat + g.expert.toNat * 2 ^ 12 + g.gen.toNat * 2 ^ 20 + 2 ^ 28 + rest.length * 2 ^ 32
      ({ c with eng := { c.eng with resolve := { c.eng.resolve with missing := rest } } }).startSpec 2
        { id := 0, doneCyc := 0, tiles := [], out := some (xd, BitVec.ofNat 64 v) })

/-- TCOMMIT (R365). -/
def execTcommit (tdst ttent : BitVec 4) (s : State) : Out :=
  let dst := s.specTile tdst
  let tent := s.specTile ttent
  let ok := (dst.isTy .fp32 && (tent.isTy .fp32 || tent.isTy .int32)) || (dst.isTy .int32 && tent.isTy .int32)
  if !tent.tent || dst.tent || tdst = ttent || !ok then specFate 72 [tdst, ttent] none s
  else
    let w := (List.range 64).foldl (fun (w : Vector Row 64 × Flags) m =>
      if (tent.tags.getD m {}).valid && m < dst.rowCount then
        let v := if m < tent.rowCount then tent.rows.getD m 0 else 0
        let a := specAdd dst.ty tent.ty (w.1.getD m 0) v none
        (w.1.setIfInBounds m a.1, w.2 ||| a.2)
      else w) (dst.rows, 0)
    .next (s.onMe fun c => ((c.unmark tdst).unmark ttent).startSpec 72
      { id := 0, doneCyc := 0, tiles := [tdst, ttent], dst := some (tdst, w.1), tent := some (ttent, tent.tagged), flags := w.2 })

/-- TSQUASH (R366). -/
def execTsquash (ttent : BitVec 4) (s : State) : Out :=
  let tent := s.specTile ttent
  if !tent.tent then specFate 4 [ttent] none s
  else .next (s.onMe fun c => (if tent.tagged = 0 then c else c.unmark ttent).startSpec 4
    { id := 0, doneCyc := 0, tiles := [ttent], tent := some (ttent, tent.tagged) })

/-- A tile with the rows under a mask zero and untagged. -/
def Tile.clearRows (t : Tile) (m : BitVec 64) : Tile :=
  { t with rows := t.rows.mapIdx fun i r => if m.getLsbD i then 0 else r,
           tags := t.tags.mapIdx fun i g => if m.getLsbD i then {} else g }

/-- SPEC_COMPLETE (R359). -/
def execSpecComplete (core : Nat) (s : State) : Out :=
  match (s.core core).eng.spec with
  | none => .next s
  | some o =>
    if (s.core core).cyc < o.doneCyc then .next s
    else .next (s.modCore core fun c =>
      let c := { c with eng := { c.eng with spec := none, ilk := c.eng.ilk.filter fun i => i.id != o.id } }
      let c := match o.dst with
        | some (t, rows) => c.modArch fun a =>
            { a with tiles := a.tiles.setIfInBounds t.toNat { (a.tiles.getD t.toNat {}) with rows := rows } }
        | none => c
      let c := match o.tent with
        | some (t, m) => c.modArch fun a => { a with tiles := a.tiles.setIfInBounds t.toNat ((a.tiles.getD t.toNat {}).clearRows m) }
        | none => c
      let c := match o.out with
        | some (xd, v) => c.putXHeld true xd v
        | none => c
      c.raiseNow o.flags)

end Sys2Proof.Machine
end

