-- ==== Sys2Proof/Machine/Sched.lean ====
section
/-!
DEFINITION. The scheduler (R71 to R81), placement (R69, R208), pre-emption and restore (R378 to R382) and retirement (R401 to
R406): PRIORITY_AGING, KERNEL_PLACEMENT, QUANTUM_EXPIRY, PREEMPTION_POINT, SAVE_COMPLETE, PLACEMENT_END, RESTORE_COMPLETE,
KERNEL_RETIRE and FINAL_ACCOUNTS.
-/
namespace Sys2Proof.Machine

/-! ### The head (R71 to R73, R80) -/

/-- Does a waiting kernel's effective priority rise now (R71)? -/
def State.agingDue (s : State) (k : Kernel) : Bool :=
  k.st == .ready && decide (k.prio < 7) && decide (k.eff < 6) && decide (s.tick ≥ k.readyTick + 14000000 * (k.eff - k.prio + 1))

/-- PRIORITY_AGING (R71). -/
def execPriorityAging (k : Nat) (s : State) : Out :=
  match s.kernel? k with
  | some q => if s.agingDue q then .next (s.modKernel k fun q => { q with eff := q.eff + 1 }) else .next s
  | none => .next s

/-- Rods that a context holds (R80). -/
def State.heldRods (s : State) (asid : Nat) : Nat :=
  ((s.kernelsOf asid).filter fun k => k.st == .placed).foldl (fun n k => n + k.nrods) 0

/-- Is a ready kernel a candidate for head (R80)? -/
def State.candidate (s : State) (k : Kernel) : Bool :=
  k.st == .ready && decide (s.heldRods k.asid + k.nrods ≤ (s.ctx k.asid).maxRods)

/-- Is kernel `a` before kernel `b` (R72)? -/
def Kernel.before (a b : Kernel) : Bool :=
  decide (a.eff > b.eff) || (a.eff == b.eff && (decide (a.readyTick < b.readyTick) || (a.readyTick == b.readyTick &&
    (decide (a.order.1 < b.order.1) || (a.order.1 == b.order.1 && decide (a.order.2 < b.order.2))))))

/-- The head (R73). -/
def State.headKernel (s : State) : Option Kernel :=
  (s.work.kernels.filter s.candidate).foldl (fun b k => match b with
    | none => some k
    | some h => if k.before h then some k else b) none

/-! ### Choosing rods (R79) -/

/-- Is a die allowed by DIES (Table 4-10)? -/
def dieAllowed (dies die : Nat) : Bool := dies == 0 || dies == die + 1

/-- The rods that are free for a kernel: held by none, and reserved for no other (R79). -/
def State.freeFor (s : State) (k : Kernel) : List Nat :=
  (List.range 64).filter fun r => dieAllowed k.dies (r / 32) && (s.rod r).kernel.isNone &&
    ((s.rod r).reserved.isNone || (s.rod r).reserved == some k.num)

/-- Free rods of a panel. -/
def freeIn (free : List Nat) (p : Nat) : List Nat := free.filter fun r => r / 4 == p

/-- The panel with the best score, the lower number first on a tie. -/
def bestPanel (score : Nat → Option Nat) (better : Nat → Nat → Bool) : Option Nat :=
  ((List.range 16).foldl (fun (b : Option (Nat × Nat)) p => match score p, b with
    | none, _ => b
    | some v, none => some (p, v)
    | some v, some (_, w) => if better v w then some (p, v) else b) none).map (·.1)

/-- Whole panels, then the remainder (R79 steps 2 and 3). `fuel` bounds the panels taken. -/
def takeRods (free : List Nat) (n : Nat) : Nat → List Nat
  | 0 => []
  | fuel + 1 =>
    let size := fun p => (freeIn free p).length
    let got := if n = 0 then [] else
      if n ≥ 4 then
        match bestPanel (fun p => if size p = 4 then some 0 else none) fun _ _ => false with
        | some p => freeIn free p
        | none => match bestPanel (fun p => if size p > 0 then some (size p) else none) fun a b => decide (a > b) with
          | some p => freeIn free p
          | none => []
      else
        match bestPanel (fun p => if size p ≥ n then some (size p) else none) fun a b => decide (a < b) with
        | some p => (freeIn free p).take n
        | none => free.take n
    if got.isEmpty then [] else got ++ takeRods (free.filter fun r => !got.contains r) (n - got.length) fuel

/-- The rods a kernel is given from its free rods, in rod order (R69, R79). -/
def chooseRods (free : List Nat) (dies n : Nat) : List Nat :=
  let d0 := free.filter fun r => decide (r < 32)
  let d1 := free.filter fun r => decide (r ≥ 32)
  let use := if dies ≠ 0 then free
    else if d0.length ≥ n && d1.length ≥ n then (if d1.length < d0.length then d1 else d0)
    else if d0.length ≥ n then d0
    else if d1.length ≥ n then d1
    else free
  sortBy id (takeRods use n 17)

/-! ### Pre-emption for the head (R73) -/

/-- Rods of a placed kernel that no head has reserved. -/
def State.unreserved (s : State) (k : Kernel) : List Nat := k.rods.filter fun r => (s.rod r).reserved.isNone

/-- Those of them that a head can use. -/
def State.gain (s : State) (h k : Kernel) : List Nat := (s.unreserved k).filter fun r => dieAllowed h.dies (r / 32)

/-- The kernels to pre-empt for the head: lowest base priority first, then the most recently placed, until enough rods would
be freed; none where they would still be too few. A kernel that holds no rod the head may use is none. DESIGN CHOICE: of two placed in one
tick, the earlier in the list of kernels counts as the more recent (log 28). -/
def State.victims (s : State) (h : Kernel) : List Kernel :=
  let coming := ((List.range 64).filter fun r => (s.rod r).kernel.isSome && (s.rod r).reserved == some h.num &&
    dieAllowed h.dies (r / 32)).length
  let need := h.nrods - (s.freeFor h).length - coming
  let ks := sortBy (fun k : Kernel => k.prio * 2 ^ 70 + (2 ^ 70 - 1 - k.placedTick))
    (s.work.kernels.filter fun k => k.st == .placed && k.stop.isNone && decide (k.prio < h.eff) && !(s.gain h k).isEmpty)
  let r := ks.foldl (fun (acc : List Kernel × Nat) k =>
    if acc.2 ≥ need then acc else (acc.1 ++ [k], acc.2 + (s.gain h k).length)) ([], 0)
  if r.2 < need then [] else r.1

/-- A kernel is pre-empted for a head, which all of its rods that are free to be are reserved for (R73). -/
def State.preemptFor (s : State) (h k : Kernel) : State :=
  let s := (s.unreserved k).foldl (fun (s : State) r => s.modRod r fun r => { r with reserved := some h.num }) s
  s.requestPre k.num .save

/-! ### Placement (R69, R78 to R81, R208) -/

/-- The state a core holds before its first bundle (R69). Its reads see every write so far. DESIGN CHOICE: the control registers of the
context that R69 does not list (FTIDX, RINGSEL, TEPC, TCAUSE, TDETAIL, TSV0 to TSV3, PFINFO, PFCOORD, PFREM, PFIA) are 0 at a first
placement, the Reset of their maps (log 4). -/
def freshCore (c : Core) (k : Kernel) (i : Nat) (img : Image) (tick wrote : Nat) : Core :=
  let x := ((Vector.replicate 32 (0 : Word)).set 1 (BitVec.ofNat 64 i)).set 2 (BitVec.ofNat 64 (4 * k.nrods))
  let a := (Vector.replicate 16 (0 : Word)).set 0 (BitVec.ofNat 64 (k.argVa + i * img.argBytes))
  let first := if img.persistent then img.le 0x1C 4 else (img.loopRec 0).pro
  let arch : Arch := { pc := codeAt first, x := x, a := a, toks := Vector.replicate 16 { tick := tick } }
  let unit : WorkUnit := { kernel := some k.num, idx := i, ended := false }
  ({ c with
    arch := arch, latch := arch, l1kb := img.l1Kb, l1 := [], l1Wait := [], view := wrote, eng := {}, unit := unit, acct := {},
    seq := { wakeFlag := c.seq.wakeFlag },
    spad := c.spad.filter fun b => decide (b.1 < img.spadBytes) }).clearPred

/-- A saved core as it stands on the core that it resumes on (R205, R242, R350, R382): it is not offered to its engines until its
restore ends. Accesses behind an RTICK that waits are still to come (R313). -/
def resumedCore (c saved : Core) (num i : Nat) : Core :=
  let arch := { saved.arch with opReq := 5 }
  ({ saved with
    arch := arch, latch := arch, l1 := [], l1Wait := [], cyc := c.cyc, tvec := c.tvec, dbg := c.dbg,
    unit := { saved.unit with kernel := some num, idx := i },
    eng := { saved.eng with
      arrayFree := 0, sfuFree := 0, vbusy := [], moveResv := [],
      mq := saved.eng.mq.map fun o : MOp => { o with issued := c.cyc },
      memq := saved.eng.memq.map fun o : MemOp => { o with dueCyc := 0 } },
    seq := { saved.seq with
      wakeFlag := c.seq.wakeFlag, fill := none, pre := .saved .save,
      heldReq := some (saved.seq.heldReq.getD saved.arch.opReq) } }).clearPred

/-- A core that no kernel holds. -/
def idleCore (c : Core) : Core :=
  { cyc := c.cyc, tvec := c.tvec, uid := c.uid, dbg := { attach := c.dbg.attach }, acct := { live := c.acct.live, held := c.acct.held }, seq := { wakeFlag := c.seq.wakeFlag },
    spad := c.spad, l1kb := c.l1kb }

/-- LINK_GEN traps that wait for a context to run on some cores (R328). -/
def State.owedLinkGen (s : State) (asid : Nat) (cores : List Nat) : State :=
  let mine := fun e : Nat × Nat × BitVec 64 => e.2.1 == asid && cores.contains e.1
  let due := s.fabric.linkGen.filter mine
  let s := { s with fabric := { s.fabric with linkGen := s.fabric.linkGen.filter fun e => !mine e } }
  due.foldl (fun (s : State) e => s.pendTrap e.1 9 e.2.2) s

/-- A kernel is placed on rods (R69, R81, R208, R245). DESIGN CHOICE: rods that were reserved for it as the head stay so, also while it is
no longer the head, until it is placed or retires (log 28). -/
def State.place (s : State) (k : Kernel) (rods : List Nat) : State :=
  let img := (s.image? k.image).getD default
  let unreserve := fun r : Rod => if r.reserved == some k.num then { r with reserved := none } else r
  let s := { s with rods := s.rods.map unreserve }
  let s := s.modKernel k.num fun k =>
    { k with st := .placed, rods := rods, placedTick := s.tick, quantum := s.tick + 140000, eff := k.prio, yielded := none,
             suspended := false }
  let s := rods.foldl (fun (s : State) r =>
    let s := (coresOf r).foldl (fun (s : State) c => s.writeback c) s
    let s := (s.clearStaging r).modRod r fun q =>
      { q with kernel := some k.num, placeLeft := 129, clk := q.clk.windowZero }
    s.wakeRod r) s
  let s := (rods.flatMap coresOf).zipIdx.foldl (fun (s : State) e => s.modCore e.1 fun c =>
    if k.suspended then resumedCore c (k.saved.getD e.2 {}) k.num e.2 else freshCore c k e.2 img s.tick s.wrote) s
  s.owedLinkGen k.asid (rods.flatMap coresOf)

/-- The rods that the head is to be placed on, once enough are free for it. -/
def State.headRods (s : State) (h : Kernel) : Option (List Nat) :=
  let free := s.freeFor h
  if free.length ≥ h.nrods then some (chooseRods free h.dies h.nrods) else none

/-- Has a free rod made its changes, so that a placement on it starts at OP5, or at a ceiling below that (R81, R227 to R229, log 26)? A
gated rod is woken at OP5. -/
def State.restsAt (s : State) (rod : Nat) : Bool :=
  let r := s.rod rod
  r.pm.state != .on || (r.clk.change.isNone && r.clk.point == s.target rod)

/-- Is there a placement, or a pre-emption for the head, to be made? -/
def State.placeDue (s : State) : Bool :=
  match s.headKernel with
  | none => false
  | some h => match s.headRods h with
    | some rods => rods.all s.restsAt
    | none => !(s.victims h).isEmpty

/-- KERNEL_PLACEMENT (R73, R79): the head is placed once enough rods are free for it and have made their changes; while too few are free,
kernels are pre-empted for it. -/
def execKernelPlacement (s : State) : Out :=
  match s.headKernel with
  | none => .next s
  | some h => match s.headRods h with
    | some rods => if rods.all s.restsAt then .next (s.place h rods) else .next s
    | none => .next ((s.victims h).foldl (fun (s : State) k => s.preemptFor h k) s)

/-- Has a placed kernel's quantum ended (R73, R162)? -/
def State.quantumDue (s : State) (k : Kernel) : Bool :=
  k.st == .placed && k.stop.isNone && (decide (s.tick ≥ k.quantum) || match k.yielded with
    | some t => decide (t ≤ s.now)
    | none => false)

/-- QUANTUM_EXPIRY (R73). -/
def execQuantumExpiry (k : Nat) (s : State) : Out :=
  match s.kernel? k with
  | none => .next s
  | some q =>
    if !s.quantumDue q then .next s
    else
      let renew := s.modKernel k fun q => { q with quantum := s.tick + 140000, yielded := none }
      match s.headKernel with
      | none => .next renew
      | some h =>
        if h.eff == q.prio && decide ((s.freeFor h).length < h.nrods) && q.rods.any (fun r => dieAllowed h.dies (r / 32)) then
          .next (renew.preemptFor h q)
        else .next renew

/-- Is the page of arguments that a rod's placement copies being retired, so that the placement waits (R394)? -/
def State.argsRetiring (s : State) (rod : Nat) : Bool :=
  !s.errors.retiring.isEmpty && match (s.rod rod).kernel.bind s.kernel? with
  | none => false
  | some k =>
    let n := ((s.image? k.image).getD default).argBytes
    (coresOf rod).any fun c => match s.argIa k.asid (k.argVa + (s.core c).unit.idx * n) n false with
      | some ia => s.linesRetiring (linesOf [(ia, n)])
      | none => false

/-- PLACEMENT_END (R55, R69, R208): arguments are copied, the first 64 KiB of code fill the L1, and window 0 starts; or the
restore of a resumed kernel begins. -/
def execPlacementEnd (rod : Nat) (s : State) : Out :=
  let r := s.rod rod
  if r.placeLeft ≠ 1 || s.argsRetiring rod then .next s
  else
    let s := s.modRod rod fun r => { r with placeLeft := 0, clk := r.clk.windowZero }
    match r.kernel.bind s.kernel? with
    | none => .next s
    | some k =>
      let img := (s.image? k.image).getD default
      .next ((coresOf rod).foldl (fun (s : State) c =>
        match (s.core c).seq.pre with
        | .saved _ => s.modCore c fun co => { co with seq := { co.seq with pre := .loadRate } }
        | _ =>
          let u := (s.core c).unit
          let (args, s) := match s.argIa k.asid (k.argVa + u.idx * img.argBytes) img.argBytes false with
            | some ia =>
              let s := s.partLines ia img.argBytes none
              (s.sideBytes .mem ia img.argBytes, s)
            | none => (List.replicate img.argBytes 0, s)
          let base := img.addr + img.codeOff
          let last := (base + Nat.min img.codeSize 65536 - 1) / 128
          let lines := (List.range (last - base / 128 + 1)).map fun i => 2 ^ 52 + (base / 128 + i) * 128
          let s := s.modCore c fun co => lines.foldl Core.l1Fill { co with spad := co.spad.writes 0 args }
          if img.persistent then
            let pc := codeAt (img.le 0x1C 4)
            s.modCore c fun co => { co with arch := { co.arch with pc := pc }, unit := { co.unit with wdog := 0 } }
          else s.startRecord c img img.loopCnt 0) s)

/-! ### Withdrawal and draining (R205, R260, R333, R402) -/

/-- Has an operation not been accepted, so that it is withdrawn (R402)? A byte barrier's or a ring's wait is never accepted (R257). -/
def EngOp.waiting (o : EngOp) : Bool :=
  match o.kind with
  | .barbw _ | .rwait _ => true
  | .marker _ => false
  | _ => !o.accepted

/-- Is an operation a BAR? -/
def EngOp.isBar (o : EngOp) : Bool := match o.kind with
  | .bar _ _ => true
  | _ => false

/-- The kernel of a core, saved ones included. -/
def State.kernelAt (s : State) (n : Nat) : Option Kernel := if n < 256 then s.kernelOf n else s.kernel? ((n - 256) / 256)

/-- The reference of a core, saved ones included. -/
def State.refAt (s : State) (n : Nat) : Nat := if n < 256 then s.refOf n else n

/-- Is an END taken or to be taken by a kernel, whose barriers, which may never complete, are given up with it (R378, R402, log 24)? -/
def Kernel.ends (k : Kernel) : Bool := k.st == .done || k.stop == some .stop

/-- The operations of a core that its kernel's end withdraws. -/
def State.withdrawn (s : State) (n : Nat) : List EngOp :=
  let ended := (s.kernelAt n).any Kernel.ends
  (s.coreAt n).eng.eng.filter fun o => o.waiting || (ended && o.isBar)

/-- The reason with which an operation is withdrawn (R402): WITHDRAWN, or NO_RING for an RWAIT on a ring that goes with its context
(R313). -/
def State.withdrawReason (s : State) (n : Nat) (o : EngOp) : Nat :=
  match o.kind with
  | .rwait ring =>
    let ends := match s.asidAt n with
      | some a => (s.ctx a).ending
      | none => false
    if ends && (s.fabric.rings.getD ring.toNat none).isSome then 12 else 17
  | _ => 17

/-- Operations that have not been accepted are withdrawn (R402). -/
def State.withdraw (s : State) (n : Nat) : State :=
  let s := (s.withdrawn n).foldl (fun (s : State) o => (s.cancelOp (s.refAt n) o.id).modCoreAt n fun c => c.refuse o.id (s.withdrawReason n o)) s
  s.modCoreAt n fun c =>
    let c := c.eng.mq.foldl (fun c m => c.refuse m.id 17) { c with eng := { c.eng with mq := [] } }
    let c := { c with seq := { c.seq with ticketWait := [] } }
    let ps := c.eng.probes ++ c.eng.aside
    (ps.filter fun p => !p.accepted).foldl (fun c p => c.refuse p.id 17)
      { c with eng := { c.eng with probes := ps.filter (·.accepted), aside := [] } }

/-- Has a core operations to be withdrawn? -/
def State.withdrawDue (s : State) (n : Nat) : Bool :=
  let c := s.coreAt n
  !(s.withdrawn n).isEmpty || !c.eng.mq.isEmpty || !c.seq.ticketWait.isEmpty || (c.eng.probes ++ c.eng.aside).any fun p => !p.accepted

/-- Is an accepted operation of a core left (R402)? One that has met an unmapped page never completes, and does not count. -/
def State.acceptedLeft (s : State) (n : Nat) : Bool :=
  let c := s.coreAt n
  !c.eng.memq.isEmpty || !c.eng.mrun.isEmpty || c.eng.spec.isSome || (match c.eng.probe with
    | some p => p.accepted
    | none => false) ||
    c.eng.eng.any fun o => !o.waiting && !(o.accepted && (s.opHole n o).isSome)

/-- Does a save wait for an operation: it is accepted, or a message that a SEND of this package has sent will land in it, and it has a
scratchpad or staging side (R260, R333)? A SENDR that has been sent has read its source; an SPUB is kept as R312 says. -/
def State.holdsSave (s : State) (core : Nat) (o : EngOp) : Bool :=
  let near := fun d : BitVec 6 => (s.last core d).space != 0
  let sent := s.fabric.chans.any fun c => c.wire.any fun w => w.direct == some (s.refOf core, o.id)
  (s.opHole core o).isNone && match o.kind with
  | .copy f src dst => o.accepted && (near src || (decide (f < 4) && near dst))
  | .recv d _ => (o.accepted || sent) && near d
  | .send _ _ d _ | .scons d => o.accepted && near d
  | _ => false

/-- The operations of a core that are offered again only after its restore (R260, R273, R333). -/
def Engines.unoffered (e : Engines) : List Nat :=
  (e.eng.filter fun o => !o.accepted).map (·.id) ++ e.mq.map (·.id) ++ (e.probes ++ e.aside).map (·.id)

/-- The accesses of a core that cannot be performed before its restore: those that wait for an RTICK whose wait is re-entered (R313), or for
an operation that is offered again only then, through a release, a FENCE, or another such access. -/
def State.stuck (s : State) (core : Nat) : List MemOp :=
  let c := s.core core
  let late := c.eng.unoffered
  let fences := fun (id : Nat) => (c.seq.fence ++ if id < c.seq.heldTo then c.seq.heldFence else []).filter fun f => decide (f.2 ≤ id)
  c.eng.memq.foldl (fun l o =>
    let fenced := (fences o.id).any fun f => (s.fenceIds core f.1).any (fun i => decide (i < f.2) && late.contains i) ||
      l.any fun e => decide (e.id < f.2)
    let waits := o.waits.any late.contains || c.seq.ticketWait.any (fun t => decide (t.1 < o.id)) || fenced
    if !o.performed && (waits || l.any fun e => e.before o) then l ++ [o] else l) []

/-- Are the engines of a core settled for a pre-emption (R205, R260, R294, R333): nothing is left that can be performed or end before the
restore? -/
def State.settled (s : State) (core : Nat) : Bool :=
  let e := (s.core core).eng
  let left := (s.stuck core).map (·.id)
  e.memq.all (fun o => left.contains o.id) && e.mrun.isEmpty && e.spec.isNone && !e.eng.any (s.holdsSave core)

/-! ### Pre-emption (R378 to R381) -/

/-- Is a core at the point at which it takes a pre-emption of a kind (Table 20-9)? A kernel with a halted core, or one that issues the
bundle of a STEP, is pre-empted for an END only (R384). -/
def State.atPoint (s : State) (core : Nat) (k : PreKind) : Bool :=
  let c := s.core core
  let r := s.rod (rodOf core)
  if r.placeLeft ≠ 0 || r.pm.state != .on || c.seq.klaunch.any (·.result.isSome) then false
  else if k == .stop then c.dbg.halted || c.seq.trapSeq.isNone
  else if ((s.kernelOf core).elim [core] Kernel.cores).any fun n => (s.core n).dbg.halted || (s.core n).dbg.step then false
  else if c.unit.ended then true
  else if c.arch.priv || c.seq.trapSeq.isSome then false
  else if c.seq.preAfter then true
  else match s.recordOf core with
    | none => true
    | some r => c.unit.started || c.unit.starting || (c.unit.sec == 1 && c.unit.secCyc == 0 && c.arch.pc == codeAt r.ker)

/-- Bytes of a save (R379). -/
def Core.saveBytes (c : Core) : Nat := 16384 + 262144 + c.spadSize

/-- The intermediate address of a core's save record (R379). -/
def State.recordIa (s : State) (core : Nat) : Nat :=
  (s.ctx ((s.asidOf core).getD 0)).saveIa + (s.core core).unit.idx * recordBytes

/-- The resources of a save or a restore, as a copy between the core and the record (R255, R379). -/
def State.moveUse (s : State) (core : Nat) (write : Bool) : Use :=
  s.useMem (dieOf core) write true [] (s.recordIa core, (s.core core).saveBytes)

/-- The rate that a save or a restore can reserve, and its ticks. -/
def State.moveRate (s : State) (core : Nat) (write : Bool) : Nat × Nat :=
  let u := s.moveUse core write
  let b := (s.core core).saveBytes
  let rho := s.rate core u b
  (rho, copyTicks u b rho)

/-- A save or restore takes its rate and begins (R379). -/
def State.beginMove (s : State) (core : Nat) (write : Bool) (ph : Nat → PrePhase) : State :=
  let u := s.moveUse core write
  let r := s.moveRate core write
  s.modCore core fun c => { c with
    eng := { c.eng with moveResv := resvOf core r.1 c.saveBytes u },
    seq := { c.seq with pre := ph (s.tick + r.2) } }

/-- What a core's pre-emption withdraws from the channels and keeps, to be offered again (R260, R273, R333). An END gives up an RTICK
that waits. -/
def State.unoffer (s : State) (core : Nat) (k : PreKind) : State :=
  let ref := s.refOf core
  let os := (s.core core).eng.eng.filter fun o => !o.accepted && !s.matched ref o.id && match o.kind with
    | .marker _ => false
    | _ => true
  let s := os.foldl (fun (s : State) o => (s.cancelOp ref o.id).modCore core fun c => c.modEng o.id fun o => { o with aux := 0 }) s
  s.modCore core fun c =>
    let c := match c.eng.probe with
      | some p => if p.accepted then c.modOp p.id fun o => { o with st := .unpromised, promise := none } else c
      | none => c
    { c.modProbe fun p => some { p with accepted := false } with seq := { c.seq with
        klaunch := [], ticketWait := if k == .stop then [] else c.seq.ticketWait } }

/-- Does PREEMPTION_POINT do something on a core? -/
def State.pointDue (s : State) (core : Nat) : Bool :=
  match (s.core core).seq.pre with
  | .requested k => s.atPoint core k && ((s.core core).unit.ended || (s.core core).seq.pendTraps.isEmpty || k == .stop)
  | .landing _ n => n == 0
  | .draining _ => s.settled core
  | .waitRate _ => decide ((s.moveRate core true).1 ≥ 8)
  | _ => false

/-- PREEMPTION_POINT (R378, R379): the core leaves its program at its point and its results land in 24 cycles, in which its engines
run on; they then settle; a save then begins once it has its rate, and an END or a TRANSFER is done with. -/
def execPreemptionPoint (core : Nat) (s : State) : Out :=
  let set := fun (s : State) (p : PrePhase) => s.modCore core fun c => { c with seq := { c.seq with pre := p } }
  if !s.pointDue core then .next s
  else match (s.core core).seq.pre with
    | .requested k => .next ((set s (.landing k 24)).modCore core fun c => { c with seq := { c.seq with preAfter := false } })
    | .landing k _ => .next (set (s.unoffer core k) (.draining k))
    | .draining .save => .next (if (s.moveRate core true).1 ≥ 8 then s.beginMove core true (.saving .save) else set s (.waitRate .save))
    | .draining k => .next (set s (.saving k s.tick))
    | .waitRate k => .next (s.beginMove core true (.saving k))
    | _ => .next s

/-- Rods are released together (R78, R229, R245, R305): their cores, whose counters the context has by now, are idle and write back the
counters of context 0 (R406), and their windows end. -/
def State.releaseRods (s : State) (k : Kernel) : State :=
  let s := k.rods.foldl (fun (s : State) r =>
    let s := (coresOf r).foldl (fun (s : State) c => (s.modCore c idleCore).writeback c) s
    ((s.clearStaging r).freeRings r).modRod r fun q => { q with kernel := none, placeLeft := 0, clk := q.clk.windowZero }) s
  s.modKernel k.num fun k => { k with rods := [] }

/-- Has a core finished its pre-emption? -/
def Core.isSaved (c : Core) : Bool := match c.seq.pre with
  | .saved _ => true
  | _ => false

/-- STATE of a record (Table 20-10). -/
def recordState (valid poison done spad : Bool) : Nat :=
  (if valid then 1 else 0) + (if poison then 2 else 0) + (if done then 4 else 0) + (if spad then 8 else 0)

/-- What a core has been charged since its save's write-back is written back as it leaves its context (R220). -/
def State.writebackRest (s : State) (core : Nat) : State :=
  let a := (s.core core).acct
  if a.held = 0 && a.live.all (· == 0) then s else s.writeback core

/-- Every core of a kernel has finished its pre-emption: it waits again and its rods are released; or it resumes at once
under its new owner, once the live counters are written back; or it is to retire (R78, R91, R378, R379). -/
def State.allSaved (s : State) (k : Kernel) : State :=
  match k.stop with
  | some .save =>
    let s := k.cores.foldl State.writebackRest s
    let saved := k.cores.map fun n => ({ s.core n with flaw := none } : Core)
    let s := s.modKernel k.num fun k =>
      { k with saved := saved, st := .ready, stop := none, readyTick := s.tick, eff := k.prio, suspended := true, yielded := none }
    let s := s.releaseRods k
    let s := if k.transferDue then (s.moveOwner k).destroyDone k.asid else s
    match s.kernel? k.num with
    | some q => if (s.ctx q.asid).ending && !s.sharedStage q then s.requestPre k.num .stop else s
    | none => s
  | some .transfer =>
    let s := k.cores.foldl State.writeback s
    let s := ((s.moveOwner k).modKernel k.num fun k => { k with stop := none }).destroyDone k.asid
    k.cores.foldl (fun (s : State) c => s.modCore c fun co => { co with seq := { co.seq with pre := .running } }) s
  | _ => s

/-- A save's read of a core's arrays ends (R381): an error that can be corrected is counted; one that cannot ends the context at
once, with a record of the core array. Answers whether the record is lost. -/
def State.saveRead (s : State) (core : Nat) : Bool × State :=
  let r : ErrRec := { unit := core, domain := s.regs.domain.toNat }
  let asid := (s.asidOf core).getD 0
  match (s.core core).flaw with
  | none => (false, s)
  | some u =>
    let s := s.modCore core fun c => { c with flaw := none }
    if !u then (false, s.countCorrected false r)
    else
      let named := (s.ctxNum asid, s.endsNow asid)
      let t := s.endContext asid 1 1 0 core (mcDetail true 0 0 false 0)
      let t := match t.kernelOf core with
        | some k => t.failStage k
        | none => t
      (true, t.logError { r with severity := 2, named := [named] })

/-- The lines of a core's record. -/
def State.recordLines (s : State) (core : Nat) : List Nat := linesOf [(s.recordIa core, (s.core core).saveBytes)]

/-- A core's record written in memory (R379, R380): STATE, SAVETICK, and the other regions, which are in the hardware's own format and so
of free bytes (log 28). -/
def State.putSave (s : State) (core : Nat) : State :=
  let ia := s.recordIa core
  let c := s.core core
  let rest := (List.range (c.saveBytes - 16)).map fun i => BitVec.ofNat 8 (Config.choiceAt 12 s.fresh i)
  let bs := toLe 8 (recordState true false c.unit.ended true) ++ toLe 8 s.tick ++ rest
  ({ s.streamLines (some (s.ownerOf core false)) ia c.saveBytes with fresh := s.fresh + 1 } : State).putSide .mem ia bs

/-- STATE of a core's record written with POISON set and VALID clear (R381, R389). -/
def State.losePoison (s : State) (core : Nat) : State :=
  s.partPut (s.recordIa core) (s.ownerOf core false) (toLe 8 (recordState false true false false))

/-- Is a pre-emption of a core at its end (R379)? A save waits while a page of its record is being retired (R394). -/
def State.saveDue (s : State) (core : Nat) : Bool :=
  match (s.core core).seq.pre with
  | .saving k till => decide (till ≤ s.tick) && !(k == .save && s.linesRetiring (s.recordLines core))
  | _ => false

/-- SAVE_COMPLETE (R379 to R381): at the end of a save the record has been written and the counters are written back; the last core of the
kernel ends the pre-emption. -/
def execSaveComplete (core : Nat) (s : State) : Out :=
  if !s.saveDue core then .next s
  else match (s.core core).seq.pre with
  | .saving k _ =>
    let s := if k == .save then
        let r := s.saveRead core
        (if r.1 then r.2.losePoison core else r.2.putSave core).writeback core
      else s
    let s := s.modCore core fun c =>
      let c := if k == .transfer then c.clearPred else c
      { c with eng := { c.eng with moveResv := [] }, seq := { c.seq with pre := .saved k } }
    match s.kernelOf core with
    | some q => if q.cores.all fun c => (s.core c).isSaved then .next (s.allSaved q) else .next s
    | none => .next s
  | _ => .next s

/-- Is a line lost to who reads it now: it is poisoned, or the copy that is read is found lost, which a clean line of a slice is only if its
DRAM copy is lost too, as it is fetched again (R389, R390)? -/
def State.readLost (s : State) (line : Nat) : Bool :=
  let bad := fun dram : Bool => s.errors.planted.contains (line, dram, true)
  s.poisoned line || match s.l2Copy line with
    | none => bad true
    | some l => bad false && (l.dirty || bad true || s.errors.poison.contains line)

/-- A line of a core's record that is lost, as an intermediate address. -/
def State.lostRecord (s : State) (core : Nat) : Option Nat :=
  (s.recordLines core).find? fun ln => (s.dramLine ln false).any s.readLost

/-- A restore finds a lost line of its record (R389): the context ends, and STATE is written with POISON. An error that is found now is
contained where it stands, and recorded with SOURCE 9 (R390, R394 to R396). -/
def State.loseRecord (s : State) (core ln : Nat) : State :=
  let asid := (s.asidOf core).getD 0
  let named := (s.ctxNum asid, s.endsNow asid)
  let s := s.endContext asid 1 1 0 core (mcDetail true 9 (ln * 128) false 0)
  let s := match s.dramLine ln false with
    | none => s
    | some d =>
      if s.poisoned d then s
      else
        let slice := homeSlice (d * 128)
        let way := ((s.rod slice).slice.lines.find? fun l : L2Line => l.line == d).map (fun l : L2Line => l.way)
        let held := s.l2Holds d
        let r := ((s.freshCopy d (!held)).mark d true).startRetire (d / 512)
        let q := if held then r.2.startQuarantine slice (way.getD 0) else (0, r.2)
        (q.2.beginContain d (if held then slice else 64) (way.getD 0)).logError
          { line := ln * 128, unit := core, way := if held then way.getD 0 else 0, source := 9, severity := 2,
            actions := r.1 + q.1, domain := s.regs.domain.toNat, named := [named] }
  s.losePoison core

/-- Does RESTORE_COMPLETE do something on a core? -/
def State.restoreDue (s : State) (core : Nat) : Bool :=
  match (s.core core).seq.pre with
  | .loadRate => decide ((s.moveRate core false).1 ≥ 8)
  | .loading till => decide (till ≤ s.tick) && !s.linesRetiring (s.recordLines core)
  | _ => false

/-- What a restore of a core finds in its record: a lost line, which ends the context (R389), or lines that are corrected, whose replays
make it longer by so many ticks (R386). -/
def State.readRecord (s : State) (core : Nat) : Nat × State :=
  if s.errors.poison.isEmpty && s.errors.planted.isEmpty && s.rods.all (fun r => r.slice.lines.all (!·.poison)) then (0, s)
  else match s.lostRecord core with
    | some ln => (0, s.loseRecord core ln)
    | none => s.streamErrors (s.recordIa core) (s.core core).saveBytes

/-- Is an operation a copy? -/
def EngOp.isCopy (o : EngOp) : Bool := match o.kind with
  | .copy _ _ _ => true
  | _ => false

/-- A restored core goes on: its saved copies are offered before its fabric operations (R382). -/
def Core.reenter (c : Core) (next : PrePhase) : Core :=
  { c with eng := { c.eng with eng := c.eng.eng.filter EngOp.isCopy ++ c.eng.eng.filter fun o => !o.isCopy },
           seq := { c.seq with pre := next } }

/-- A core's record has been read (R208, R382). Once the rod's cores have all been restored, their saved work is offered again, they may
issue, and window 0 starts. -/
def State.restored (s : State) (core : Nat) : State :=
  let s := s.streamLines none (s.recordIa core) (s.core core).saveBytes
  let s := s.modCore core fun c =>
    { c with eng := { c.eng with moveResv := [] }, seq := { c.seq with pre := .restored } }
  let rod := coresOf (rodOf core)
  if rod.any fun c => (s.core c).restoring && (s.core c).seq.pre != .restored then s
  else
    let next := match (s.kernelOf core).bind (·.stop) with
      | some k => PrePhase.requested k
      | none => .running
    let s := rod.foldl (fun (s : State) c => s.modCore c fun c => c.reenter next) s
    s.modRod (rodOf core) fun r => { r with clk := r.clk.windowZero }

/-- RESTORE_COMPLETE (R208, R382, R389): the record has been read, or is read again where DRAM replays make it longer. A restore begins
once it has its rate. -/
def execRestoreComplete (core : Nat) (s : State) : Out :=
  if !s.restoreDue core then .next s
  else match (s.core core).seq.pre with
    | .loadRate => .next (s.beginMove core false .loading)
    | .loading _ =>
      let r := s.readRecord core
      if r.1 = 0 then .next (r.2.restored core)
      else .next (r.2.modCore core fun c => { c with seq := { c.seq with pre := .loading (s.tick + r.1) } })
    | _ => .next s

/-! ### Retirement (R402 to R406) -/

/-- Is a kernel done: its cores have all ended their last work unit, whatever pre-emption is under way or has saved them, or an END has
been taken by all of them (R402)? -/
def State.kernelDone (s : State) (k : Kernel) : Bool :=
  match k.st with
  | .done => true
  | .ready => !k.saved.isEmpty && k.saved.all fun c => c.unit.ended
  | .placed =>
    k.cores.all (fun c => (s.core c).unit.ended && (s.rod (rodOf c)).placeLeft == 0) ||
    k.cores.all fun c => match (s.core c).seq.pre with
      | .saved _ => k.stop == some .stop
      | _ => false

/-- Does KERNEL_RETIRE do something? -/
def State.retireDue (s : State) (k : Kernel) : Bool :=
  s.kernelDone k && (k.allCores.any s.withdrawDue || !k.allCores.any s.acceptedLeft)

/-- KERNEL_RETIRE (R402, R403): unaccepted operations are withdrawn, and, once no accepted one is left, the kernel retires. -/
def execKernelRetire (k : Nat) (s : State) : Out :=
  match s.kernel? k with
  | none => .next s
  | some q =>
    if !s.retireDue q then .next s
    else
      let s := q.allCores.foldl (fun (s : State) n => s.withdraw n) s
      if q.allCores.any s.acceptedLeft then .next s
      else
        let s := if q.st == .placed then q.cores.foldl (fun (s : State) c => s.writeback c) s else s
        let s := s.unpin q
        let s := if q.st == .placed then s.releaseRods q else s
        let stays := fun b : BarInst => b.scope == Scope.domain || b.kernel != k
        let gone := fun r : Rod => if r.reserved == some k then { r with reserved := none } else r
        let s := { s with
          rods := s.rods.map gone,
          work := { s.work with kernels := s.work.kernels.filter fun e => e.num != k },
          fabric := { s.fabric with bars := s.fabric.bars.filter stays } }
        let s := s.dropImages.modStatus q.asid fun e => { e with ctxst0 := e.ctxst0 + 0x100000000#64 }
        .next ((s.stageRetired q).destroyDone q.asid)

/-- Is a context's end ready for its final accounts (R91, R404)? -/
def State.finalDue (s : State) (asid : Nat) : Bool :=
  (s.ctx asid).ending && (s.kernelsOf asid).isEmpty && !s.entries.any fun e => e.2.owner == asid && !e.2.gone

/-- FINAL_ACCOUNTS (R387, R404): what the context shared is given back, FINAL is stored, and its ASID is free. -/
def execFinalAccounts (asid : Nat) (s : State) : Out :=
  if !s.finalDue asid then .next s
  else
    let c := s.ctx asid
    let clean := fun d : Die =>
      let d : Die := { d with pq := d.pq.filter fun e => e.asid != asid }
      if rbit d.gatecfg 0 && rfield d.gatecfg 31 9 == asid then { d with gatecfg := d.gatecfg &&& ~~~1#64 } else d
    let s := { s with dies := s.dies.map clean }
    let rings := s.fabric.rings.map fun r : Option Ring => match r with
      | some g => if g.asid = asid then none else r
      | none => none
    let s := { s with fabric := { s.fabric with rings := rings } }
    let s := (List.range 256).foldl (fun (s : State) i =>
      if (s.chan i).en && (s.chan i).asid == asid then match execChannelUnbind (i / 16) (i % 16) s with
        | .next t => t
        | _ => s
      else s) s
    let s := s.partPut (c.acctIa + 0x98) s.fwOwner (toLe 8 1)
    let s := s.modStatus asid fun e => { e with ctxend := e.ctxend ||| 0x4000000000000000#64 }
    let s := if c.byDestroy then s else s.msix 65
    let clear := fun l : L2Line => match l.tag with
      | some t => if !t.fw && !t.remote && t.asid == asid then { l with tag := none } else l
      | none => l
    let clearRod := fun r : Rod => { r with slice := { r.slice with lines := r.slice.lines.map clear } }
    let s := { s with rods := s.rods.map clearRod }
    let s := s.pinPages (s.localPages c.saveIa c.saveLen) false
    .next (s.modCtx asid fun c => { c with live := false, free := true, ending := false })

end Sys2Proof.Machine
end

