-- ==== Sys2Proof/Machine/Bundle.lean ====
section
/-!
DEFINITION. Bundles (R115 to R123, R127, R128, R130, R131): what a slot writes, reads and names, when a bundle is illegal, which
slots are privileged, and the faults that are found before any slot commits.
-/
namespace Sys2Proof.Machine

/-! ### What a slot writes, reads and names (Tables 7-8 to 7-12) -/

/-- A place that a slot writes, as R123 compares them. -/
inductive Dest where
  | x (r : BitVec 5)
  | a (r : BitVec 4)
  | c (r : BitVec 2)
  | p (r : BitVec 3)
  | tile (t : BitVec 4)
  | tok (k : BitVec 4)
  | sl
  | delta (lvl : BitVec 2) (g : DeltaTarget)
  deriving DecidableEq, Repr, Inhabited

/-- What a slot writes (R123); the other instructions write none of these. -/
def slotWrites : Instr → List Dest
  | .add _ xd _ _ | .sub _ xd _ _ | .and _ xd _ _ | .or _ xd _ _ | .xor _ xd _ _ | .andn _ xd _ _ | .sll _ xd _ _
  | .srl _ xd _ _ | .sra _ xd _ _ | .ror _ xd _ _ | .mul _ xd _ _ | .mulh _ xd _ _ | .mulhu _ xd _ _ | .div _ xd _ _
  | .divu _ xd _ _ | .rem _ xd _ _ | .remu _ xd _ _ | .min _ xd _ _ | .max _ xd _ _ | .minu _ xd _ _ | .maxu _ xd _ _
  | .slt _ xd _ _ | .sltu _ xd _ _ | .seq _ xd _ _ => [.x xd]
  | .clz _ xd _ | .ctz _ xd _ | .popc _ xd _ => [.x xd]
  | .addi xd _ _ | .andi xd _ _ | .ori xd _ _ | .xori xd _ _ | .slti xd _ _ | .sltui xd _ _ | .muli xd _ _ => [.x xd]
  | .slli xd _ _ | .srli xd _ _ | .srai xd _ _ => [.x xd]
  | .lui xd _ | .auipc xd _ => [.x xd]
  | .jal xd _ | .jalr xd _ => [.x xd]
  | .ldelta l g _ => [.delta l g]
  | .movxa r _ => [.a r]
  | .movax xd _ => [.x xd]
  | .movxc r _ => [.c r]
  | .movcx xd _ => [.x xd]
  | .pset r _ => [.p r]
  | .pand r _ _ | .por r _ _ | .pxor r _ _ => [.p r]
  | .pnot r _ => [.p r]
  | .rdctl xd _ | .rdcyc xd => [.x xd]
  | .sel xd _ _ _ => [.x xd]
  | .klaunch xd _ | .accrd xd _ => [.x xd]
  | .vadd v _ _ | .vsub v _ _ | .vmul v _ _ | .vfma v _ _ | .vmin v _ _ | .vmax v _ _ | .vand v _ _ | .vor v _ _
  | .vxor v _ _ | .vshl v _ _ | .vshr v _ _ | .vsel v _ _ | .vcmpeq v _ _ | .vcmplt v _ _ | .vcmple v _ _
  | .vabsd v _ _ => [.tile (vTile v)]
  | .vadds v _ _ | .vmuls v _ _ | .vfmas v _ _ | .vmins v _ _ | .vmaxs v _ _ => [.tile (vTile v)]
  | .vsplat v _ => [.tile (vTile v)]
  | .vcvt v _ _ _ => [.tile (vTile v)]
  | .vmaxexp _ _ => [.sl]
  | .vqnt v _ _ | .vdqnt v _ _ => [.tile (vTile v)]
  | .vrnd v _ _ => [.tile (vTile v)]
  | .vrsum v _ | .vrmax v _ | .vrmin v _ | .vramax v _ => [.tile (vTile v)]
  | .vperm v _ _ | .vcompr v _ _ => [.tile (vTile v)]
  | .vext xd _ _ => [.x xd]
  | .vins v _ _ => [.tile (vTile v)]
  | .viota v => [.tile (vTile v)]
  | .tcfg t _ _ _ _ => [.tile t]
  | .tzero t => [.tile t]
  | .tmov td _ => [.tile td]
  | .ttag _ _ xd => [.x xd]
  | .vld v _ _ => [.tile (vTile v)]
  | .vlde _ _ => [.sl]
  | .frcp v _ | .frsq v _ | .fsqrt v _ | .fexp2 v _ | .flog2 v _ | .fexpt v _ | .ftanh v _ | .fsigm v _ => [.tile (vTile v)]
  | .gtopk v _ _ | .gsmax v _ _ => [.tile (vTile v)]
  | .ghist v _ => [.tile (vTile v)]
  | .mma t _ _ k _ | .mmaz t _ _ k _ | .mmat t _ _ k _ => [.tile t, .tok k]
  | .mmag t _ _ k _ => [.tile t, .tok k]
  | .mgset _ _ k _ => [.tok k]
  | .mdrain k _ => [.tok k]
  | .resolve td tt _ xd => [.tile td, .tile tt, .x xd]
  | .tcommit td tt => [.tile td, .tile tt]
  | .tsquash tt => [.tile tt]
  | .rlist xd => [.x xd]
  | .ldbu _ xd _ _ | .ldb _ xd _ _ | .ldhu _ xd _ _ | .ldh _ xd _ _ | .ldwu _ xd _ _ | .ldw _ xd _ _ | .ldd _ xd _ _ => [.x xd]
  | .aadd _ xd _ _ _ _ | .amax _ xd _ _ _ _ | .amin _ xd _ _ _ _ | .amaxu _ xd _ _ _ _ | .axchg _ xd _ _ _ _
  | .acas _ xd _ _ _ _ | .aand _ xd _ _ _ _ | .aor _ xd _ _ _ _ => [.x xd]
  | .cpy _ _ k _ | .cpycv _ _ k _ | .cpyz _ _ k _ | .cpyl2 _ _ k _ => [.tok k]
  | .cpypf _ k _ | .cpywb _ k _ => [.tok k]
  | .tktest _ xd | .tkprom _ xd => [.x xd]
  | .tkjoin k _ _ _ => [.tok k]
  | .tkset k _ => [.tok k]
  | .probe _ k _ | .probew _ k _ => [.tok k]
  | .bar _ _ k _ => [.tok k]
  | .barbw _ k _ | .rwait _ k _ => [.tok k]
  | .rtick _ xd | .rtake _ xd => [.x xd]
  | .pqpop xd => [.x xd]
  | .send _ _ k _ | .sendQ _ _ k _ | .sendr _ _ k _ | .recv _ _ k _ | .sendG _ _ k _ => [.tok k]
  | .recvq xd _ => [.x xd]
  | .plook xd _ => [.x xd]
  | .sjoin xd => [.x xd]
  | .spub _ k _ | .scons _ k _ => [.tok k]
  | _ => []

/-- Writes to x0 and p0 do not count (R123). -/
def Dest.counts : Dest → Bool
  | .x r => r != 0
  | .p r => r != 0
  | _ => true

/-- The scalar registers that a slot reads, for the interlock (R127). -/
def slotReadsX : Instr → List (BitVec 5)
  | .add _ _ a b | .sub _ _ a b | .and _ _ a b | .or _ _ a b | .xor _ _ a b | .andn _ _ a b | .sll _ _ a b | .srl _ _ a b
  | .sra _ _ a b | .ror _ _ a b | .mul _ _ a b | .mulh _ _ a b | .mulhu _ _ a b | .div _ _ a b | .divu _ _ a b | .rem _ _ a b
  | .remu _ _ a b | .min _ _ a b | .max _ _ a b | .minu _ _ a b | .maxu _ _ a b | .slt _ _ a b | .sltu _ _ a b
  | .seq _ _ a b => [a, b]
  | .clz _ _ a | .ctz _ _ a | .popc _ _ a => [a]
  | .addi _ a _ | .andi _ a _ | .ori _ a _ | .xori _ a _ | .slti _ a _ | .sltui _ a _ | .muli _ a _ => [a]
  | .slli _ a _ | .srli _ a _ | .srai _ a _ => [a]
  | .beq a b _ | .bne a b _ | .blt a b _ | .bge a b _ | .bltu a b _ | .bgeu a b _ => [a, b]
  | .jr a _ | .jalr a _ => [a]
  | .loop _ a _ => [a]
  | .movxa _ a => [a]
  | .movxc _ a => [a]
  | .pset _ a => [a]
  | .wrctl a _ => [a]
  | .sel _ a b _ => [a, b]
  | .sleepu a | .waitw a => [a]
  | .vadds _ _ b | .vmuls _ _ b | .vfmas _ _ b | .vmins _ _ b | .vmaxs _ _ b => [b]
  | .vsplat _ b => [b]
  | .vext _ _ b => [b]
  | .vins _ a b => [a, b]
  | .mgset _ a _ _ => [a]
  | .stb _ a _ _ | .sth _ a _ _ | .stw _ a _ _ | .std _ a _ _ => [a]
  | .acas _ xd _ a _ _ => [xd, a]
  | .aadd _ _ _ a _ _ | .amax _ _ _ a _ _ | .amin _ _ _ a _ _ | .amaxu _ _ _ a _ _ | .axchg _ _ _ a _ _ | .aand _ _ _ a _ _
  | .aor _ _ _ a _ _ => [a]
  | .bar _ a _ _ => [a]
  | .barba _ a => [a]
  | .rfill _ a _ => [a]
  | .pqpush a b => [a, b]
  | .send _ a _ _ | .sendQ _ a _ _ | .sendr _ a _ _ | .recv _ a _ _ | .sendG _ a _ _ => [a]
  | .recvq _ a => [a]
  | .gretire a => [a]
  | .plook _ a => [a]
  | .ptrain a b => [a, b]
  | .pcfg a => [a]
  | _ => []

/-- The tiles that a slot reads and does not write, for the scoreboard (R128). -/
def slotReadsTile : Instr → List (BitVec 4)
  | .vadd _ a b | .vsub _ a b | .vmul _ a b | .vfma _ a b | .vmin _ a b | .vmax _ a b | .vand _ a b | .vor _ a b | .vxor _ a b
  | .vshl _ a b | .vshr _ a b | .vsel _ a b | .vcmpeq _ a b | .vcmplt _ a b | .vcmple _ a b | .vabsd _ a b
  | .vperm _ a b | .vcompr _ a b => [vTile a, vTile b]
  | .vadds _ a _ | .vmuls _ a _ | .vfmas _ a _ | .vmins _ a _ | .vmaxs _ a _ => [vTile a]
  | .vcvt _ a _ _ => [vTile a]
  | .vmaxexp a _ => [vTile a]
  | .vqnt _ a _ | .vdqnt _ a _ => [vTile a]
  | .vrnd _ a _ => [vTile a]
  | .vrsum _ a | .vrmax _ a | .vrmin _ a | .vramax _ a => [vTile a]
  | .vext _ a _ => [vTile a]
  | .tmov _ t => [t]
  | .ttag t _ _ => [t]
  | .vst v _ _ => [vTile v]
  | .frcp _ a | .frsq _ a | .fsqrt _ a | .fexp2 _ a | .flog2 _ a | .fexpt _ a | .ftanh _ a | .fsigm _ a => [vTile a]
  | .gtopk _ a _ | .gsmax _ a _ => [vTile a]
  | .ghist _ a => [vTile a]
  | .mma _ t _ _ _ | .mmaz _ t _ _ _ | .mmat _ t _ _ _ => [t]
  | .mmag _ v _ _ _ => [vTile v]
  | .resolve _ _ v _ => [vTile v]
  | _ => []

/-- The tiles a slot writes. -/
def slotWritesTile (i : Instr) : List (BitVec 4) := (slotWrites i).filterMap fun d => match d with
  | .tile t => some t
  | _ => none
/-- The scalar registers a slot writes. -/
def slotWritesX (i : Instr) : List (BitVec 5) := (slotWrites i).filterMap fun d => match d with
  | .x r => if r = 0 then none else some r
  | _ => none

/-- Slot classes (Table 7-2). -/
inductive SlotClass where
  | s | v | f | m | c
  deriving DecidableEq, Repr, Inhabited

/-- The class of a word; a reserved MAJ belongs to none (R119). -/
def wordClass (w : BitVec 32) : Option SlotClass :=
  let m := (w.extractLsb' 24 5).toNat
  if m < 8 then some .s else if m < 14 then some .v else if m < 16 then some .f else if m < 20 then some .m
  else if m < 29 then some .c else none

/-- Slots of a class that a bundle may hold (Table 7-2). -/
def SlotClass.limit : SlotClass → Nat
  | .s => 2 | .v => 2 | .f => 1 | .m => 1 | .c => 2

/-- Is a slot a control transfer (R120)? -/
def isTransferSlot : Instr → Bool
  | .beq _ _ _ | .bne _ _ _ | .blt _ _ _ | .bge _ _ _ | .bltu _ _ _ | .bgeu _ _ _ => true
  | .bp _ _ | .bnp _ _ => true
  | .j _ => true
  | .jal _ _ | .jr _ _ | .jalr _ _ => true
  | .loop _ _ _ => true
  | .halt | .rfe | .yield => true
  | .trap _ | .brk _ => true
  | .sleepu _ => true
  | _ => false

/-- Is a slot privileged (R131)? -/
def isPrivSlot : Instr → Bool
  | .rfe => true
  | .waitw _ => true
  | .rdctl _ n | .wrctl _ n => decide (n.toNat ≥ 0x100)
  | _ => false

/-! ### Illegal bundles (R130) -/

/-- The mask of the slots of a list that meet a test. -/
def slotMask {α : Type} (p : α → Bool) (l : List α) : Nat :=
  l.zipIdx.foldl (fun m e => if p e.1 then m + 2 ^ e.2 else m) 0

/-- The slots of each class that passes its limit (reason 1). -/
def classMask (ws : List (BitVec 32)) : Nat :=
  slotMask (fun w => match wordClass w with
    | some k => decide ((ws.filter fun v => wordClass v == some k).length > k.limit)
    | none => false) ws

/-- The slots that write what another slot writes (reason 2). -/
def writeMask (is : List Instr) : Nat :=
  slotMask (fun (e : Instr × Nat) => is.zipIdx.any fun f => f.2 != e.2 &&
    (slotWrites e.1).any fun d => d.counts && (slotWrites f.1).contains d) is.zipIdx

/-- The instructions of some words, where each of them is a legal slot. -/
def decodeAll (ws : List (BitVec 32)) : Option (List Instr) := ws.mapM fun w => match decodeInstr w with
  | .ok i => some i
  | .error _ => none

/-- Why the words of a bundle are illegal: the reason and the mask (Table 7-6, reasons 0 to 4). -/
def bundleDefect (ws : List (BitVec 32)) : Option (Nat × Nat) :=
  let bad := slotMask (fun w => match decodeInstr w with
    | .ok _ => false
    | .error _ => true) ws
  if bad ≠ 0 then some (0, bad)
  else if classMask ws ≠ 0 then some (1, classMask ws)
  else
    let is := (decodeAll ws).getD []
    if writeMask is ≠ 0 then some (2, writeMask is)
    else if !ws.any (·.msb) then some (3, 0xFF)
    else if (is.filter isTransferSlot).length > 1 then some (4, slotMask isTransferSlot is)
    else none

/-- The declared weight of some words (R118). -/
def bundleWeight (ws : List (BitVec 32)) : Nat := (ws.map fun w => (w.extractLsb' 29 2).toNat).sum

/-! ### Faults found before a bundle commits (R131) -/

/-- The target of a slot that is a taken branch or jump. -/
def State.takenTarget (s : State) : Instr → Option Word
  | .beq a b off => if s.rx a == s.rx b then some (s.brTarget off) else none
  | .bne a b off => if s.rx a != s.rx b then some (s.brTarget off) else none
  | .blt a b off => if (s.rx a).slt (s.rx b) then some (s.brTarget off) else none
  | .bge a b off => if !(s.rx a).slt (s.rx b) then some (s.brTarget off) else none
  | .bltu a b off => if (s.rx a).ult (s.rx b) then some (s.brTarget off) else none
  | .bgeu a b off => if !(s.rx a).ult (s.rx b) then some (s.brTarget off) else none
  | .bp p off => if s.me.rdP p then some (s.brTarget off) else none
  | .bnp p off => if !s.me.rdP p then some (s.brTarget off) else none
  | .j off => some (s.jTarget off)
  | .jal _ off => some (s.jTarget off)
  | .jr x off => some (s.jrTarget x off)
  | .jalr x off => some (s.jrTarget x off)
  | _ => none

/-- The address at which a slot is a FATAL_ACCESS (R131 step 4). -/
def State.slotFatal (s : State) (i : Instr) : Option Word :=
  let ldst := fun (n : Nat) (st : Bool) (ar : BitVec 4) (imm : BitVec 9) =>
    if (s.ldstLoc n st ar imm).isNone then some (s.ldstVa n ar imm) else none
  let atom := fun (ar : BitVec 4) (dbl : BitVec 1) =>
    let n := if dbl = 1 then 8 else 4
    let va := s.ra ar
    if va.toNat % n != 0 || (s.resolve s.act va.toNat n true true false).isNone then some va else none
  let row := fun (ar : BitVec 4) (imm : BitVec 10) (unit align : Nat) =>
    if (s.spadOff ar imm unit align unit).isNone then some (s.ra ar + sext64 imm * BitVec.ofNat 64 unit) else none
  match i with
  | .ldbu _ _ ar imm | .ldb _ _ ar imm => ldst 1 false ar imm
  | .ldhu _ _ ar imm | .ldh _ _ ar imm => ldst 2 false ar imm
  | .ldwu _ _ ar imm | .ldw _ _ ar imm => ldst 4 false ar imm
  | .ldd _ _ ar imm => ldst 8 false ar imm
  | .stb _ _ ar imm => ldst 1 true ar imm
  | .sth _ _ ar imm => ldst 2 true ar imm
  | .stw _ _ ar imm => ldst 4 true ar imm
  | .std _ _ ar imm => ldst 8 true ar imm
  | .aadd _ _ ar _ dbl _ | .amax _ _ ar _ dbl _ | .amin _ _ ar _ dbl _ | .amaxu _ _ ar _ dbl _ | .axchg _ _ ar _ dbl _
  | .acas _ _ ar _ dbl _ | .aand _ _ ar _ dbl _ | .aor _ _ ar _ dbl _ => atom ar dbl
  | .vld _ ar imm | .vst _ ar imm => row ar imm 256 256
  | .vlde ar imm | .vste ar imm => row ar imm 32 16
  | .klaunch _ ar =>
    let va := s.ra ar
    if va.toNat % 64 = 0 && (s.resolve s.act va.toNat 64 true false true).isNone then some va else none
  | _ => none

/-- The first slot of a bundle that meets a test, by number. -/
def State.firstSlot {α : Type} (s : State) (f : State → Instr → Option α) (is : List Instr) : Option (Nat × α) :=
  is.zipIdx.findSome? fun e => (f { s with slot := e.2 } e.1).map fun v => (e.2, v)

/-- Reason 5 of Table 7-6: the slot of a taken branch or jump that leaves its section (R56). -/
def State.sectionFault (s : State) (is : List Instr) : Option Nat :=
  (s.firstSlot (fun s i => (s.takenTarget i).bind fun t => if s.leavesSection s.act t then some () else none) is).map (·.1)

/-! ### Fetch from the L1 (R207) -/

/-- The address by which the L1 knows a slot's place. -/
def State.codeAddr (s : State) (core pc : Nat) : Option Nat := (s.fetchLoc core pc).bind Loc.l1Addr

/-- The places of the words of the bundle at the core's program counter, in the L1's addresses. -/
def State.bundleAddrs (s : State) (core : Nat) : List Nat :=
  let pc := (s.core core).arch.pc
  (List.range ((s.fetchBundle core pc).getD []).length).filterMap fun i => s.codeAddr core (pc.toNat + 4 * i)

/-- The first word of the next bundle that the L1 does not hold. -/
def State.fetchMiss (s : State) (core : Nat) : Option Nat :=
  (s.bundleAddrs core).find? fun a => !(s.core core).l1Has a

/-- A core whose next bundle is not in the L1 asks for the first line it misses (R207, R243). -/
def State.startFetch (s : State) (core : Nat) : State :=
  if (s.core core).seq.fill.isSome then s
  else match (s.fetchMiss core).filter fun a => !(s.core core).l1Wait.contains a with
    | none => s
    | some a =>
      let line := if a ≥ 2 ^ 52 then 2 ^ 54 + (a - 2 ^ 52) else (match s.fetchLoc core (s.core core).arch.pc.toNat with
        | some (.dram o _ _) => o
        | _ => a)
      let r := s.l2Access (line / 128) a none
      r.2.modCore core fun c => { c with seq := { c.seq with
        fill := some (a, Nat.max (s.tick + sliceLatency core (homeSlice line) + r.1 + s.traffic core 1) (s.retireTill (line / 128))) } }

/-! ### Held bundles (Table 11-2) -/

/-- Is a memory or engine command of a core taken up, as a probe waits for it (R269)? -/
def State.takenUp (s : State) (core : Nat) (o : EngOp) : Bool :=
  let ended := (s.core core).arch.tokEnded o.kin
  match o.kind with
  | .barbw _ | .rwait _ => ended
  | .scons d => o.accepted || (ended && match s.stageAt core with
    | some e => stageReason (s.last core d) e.2.ibytes true == 0
    | none => false)
  | .recv _ _ => o.accepted || o.aux != 0
  | .marker _ => true
  | _ => o.accepted

/-- Has a core commands that a probe waits for, or results in flight (R269)? A handler's probe waits for one of the program that has not
been accepted yet. -/
def State.probeWaits (s : State) (core : Nat) : Bool :=
  let c := s.core core
  !c.arch.pend.isEmpty || !c.eng.mq.isEmpty || c.eng.probes.any (!·.begun) || c.eng.eng.any fun o => !s.takenUp core o

/-- Does a probe hold every later bundle (R269)? What a program issued does not hold the handler of a trap that is taken meanwhile: such a
trap ends the hold (R371, R373). -/
def Core.probeHolds (c : Core) : Bool := c.eng.probes.any fun p => p.priv == c.arch.priv

/-- The operations that hold a TKWAIT. -/
def Arch.waitOps (a : Arch) (t : Tok) : List TokOp :=
  if a.tokEnded t then [] else (a.tokOps t).filter fun o => o.st == .unpromised || o.st == .promised

/-- Does TKWAIT of a slot wait on an operation of a class? -/
def State.waitsOn (s : State) (cls : OpClass) : Instr → Bool
  | .tkwait k => (s.me.arch.waitOps (s.rdTok k)).any fun o => o.cls == cls
  | _ => false

/-- Is a register of a slot interlocked on a writer of one class (R127)? -/
def Core.interlocked (c : Core) (m : Bool) (i : Instr) : Bool :=
  c.eng.ilk.any fun l => l.mclass == m && ((slotReadsX i).contains l.xd || (slotWritesX i).contains l.xd)

/-- Operations that a TKJOIN keeps (R298). -/
def State.joinLeft (s : State) : Instr → Nat
  | .tkjoin _ ka kb kc => (s.joinLive ka kb kc).length
  | _ => 0

/-- Copies that a core has outstanding (R253). -/
def Core.copies (c : Core) : Nat := (c.eng.eng.filter fun o => match o.kind with
  | .copy _ _ _ => true
  | _ => false).length

/-- Is a slot a copy? -/
def isCopySlot : Instr → Bool
  | .cpy _ _ _ _ | .cpycv _ _ _ _ | .cpyz _ _ _ _ | .cpyl2 _ _ _ _ => true
  | .cpypf _ _ _ | .cpywb _ _ _ => true
  | _ => false
/-- Is a slot a probe? -/
def isProbeSlot : Instr → Bool
  | .probe _ _ _ | .probew _ _ _ => true
  | _ => false
/-- Is a slot a KLAUNCH? -/
def isKlaunchSlot : Instr → Bool
  | .klaunch _ _ => true
  | _ => false
/-- Is a slot a write of PMSYNC? -/
def isPmsyncSlot : Instr → Bool
  | .wrctl _ n => n == 0x161
  | _ => false
/-- Does a slot enter the matrix queue (R191)? -/
def isMatrixSlot : Instr → Bool
  | .mma _ _ _ _ _ | .mmaz _ _ _ _ _ | .mmat _ _ _ _ _ | .mmag _ _ _ _ _ => true
  | .mgset _ _ _ _ | .mdrain _ _ => true
  | _ => false
/-- Is a slot of the SPEC group? -/
def isSpecSlot : Instr → Bool
  | .resolve _ _ _ _ | .tcommit _ _ | .tsquash _ | .rlist _ => true
  | _ => false
/-- Is a slot of class F? -/
def isFSlot : Instr → Bool
  | .frcp _ _ | .frsq _ _ | .fsqrt _ _ | .fexp2 _ _ | .flog2 _ _ | .fexpt _ _ | .ftanh _ _ | .fsigm _ _ => true
  | .gtopk _ _ _ | .gsmax _ _ _ => true
  | .ghist _ _ => true
  | _ => false
/-- Is a slot a TCFG, TZERO or TMOV? -/
def setsTileSlot : Instr → Bool
  | .tcfg _ _ _ _ _ | .tzero _ | .tmov _ _ => true
  | _ => false

/-- Is a tile busy from an M slot (R128)? -/
def Core.busyM (c : Core) (t : BitVec 4) : Bool :=
  c.eng.mq.any (fun o => o.kind.names t) || c.eng.mrun.any (fun r => r.kind.names t) ||
    match c.eng.spec with
    | some o => o.tiles.contains t
    | none => false
/-- Is a tile busy from a V or F slot? -/
def Core.busyV (c : Core) (t : BitVec 4) : Bool := c.eng.vbusy.any fun b => b.1 == t && decide (c.cyc < b.2)

/-- Does the tile scoreboard hold a slot (R128)? -/
def Core.scoreboard (c : Core) (i : Instr) : Bool :=
  let ts := (slotWritesTile i) ++ (slotReadsTile i)
  ts.any c.busyM || (((isMatrixSlot i) || (isSpecSlot i)) && ts.any c.busyV) || ((setsTileSlot i) && (slotWritesTile i).any c.busyV)

/-- Does something that no slot of the next bundle has to do with hold it, as a token does that is waited for: a probe (R269); a write of
PMSYNC that waits (R267); a row of the scratchpad that is still to be read, so that its result has landed by its bound for every bundle
(R124, log 34); an SPUB with which its stage retires or changes its owner (R90, R91); or a work unit that waits to start (R55)? -/
def State.heldToken (s : State) : Bool :=
  let c := s.me
  c.probeHolds || s.pm.queue.any (·.1 == s.act) || c.eng.memq.any (·.kind.isRowRead) || ((c.seq.pubStop.isSome || c.unit.starting) && !c.arch.priv)

/-- The slots of the next bundle of the acting core, where its words are legal. -/
def State.nextSlots (s : State) : List Instr :=
  match s.fetchBundle s.act s.me.arch.pc with
  | some ws => if (bundleDefect ws).isNone then (decodeAll ws).getD [] else []
  | none => []

/-- The first row of Table 11-2 among the waits of a bundle's TKWAITs on barriers and receives, which stand before the other waits on
tokens. -/
def State.waitRow (s : State) (is : List Instr) : Option Nat :=
  if is.any (s.waitsOn .barrier) then some causeBarrier
  else if is.any (s.waitsOn .recv) then some causeRecv
  else none

/-- What holds the next bundle of the acting core before its slots matter: rows 1 to 3 of Table 11-2, and what holds it as a token does,
which is charged to the first row that holds. -/
def State.heldEarly (s : State) : Option Nat :=
  let c := s.me
  if (s.fetchMiss s.act).isSome || c.seq.walk != 0 then some causeFetch
  else if c.seq.sleepTo.isSome || c.seq.waitw.isSome then some causeSleep
  else if c.seq.fence.any (fun f => !s.fenceMet s.act f.1 f.2) then some causeBarrier
  else if s.heldToken then some ((s.waitRow s.nextSlots).getD causeToken)
  else none

/-- What holds a bundle by its slots: rows 3 to 6 of Table 11-2. A KLAUNCH that has not been answered is apart. -/
def State.heldBy (s : State) (is : List Instr) : Option Nat :=
  let c := s.me
  if (s.waitRow is).isSome then s.waitRow is
  else if is.any (s.waitsOn .other) || is.any (c.interlocked false) || (is.any isPmsyncSlot && s.pm.busy)
      || decide (c.copies + (is.filter isCopySlot).length > 32 ∧ is.any isCopySlot)
      || is.any (fun i => decide (s.joinLeft i > 3)) || (is.any isProbeSlot && s.probeWaits s.act) then
    some causeToken
  else if is.any c.scoreboard || (is.any isFSlot && decide (c.cyc < c.eng.sfuFree))
      || (is.any isMatrixSlot && decide (c.eng.mq.length ≥ 4)) || (is.any isSpecSlot && c.eng.spec.isSome)
      || is.any (c.interlocked true) then some causeTile
  else none

/-! ### What the next bundle raises (R130, R131) -/

/-- The class and detail that the next bundle of the acting core raises before it issues, from its words: a fetch
FATAL_ACCESS, ILLEGAL_BUNDLE or PRIV (R131 steps 1 to 3). A bundle with a privileged slot and a transfer is decided once nothing
holds it, because reason 5, which goes before PRIV, depends on the target. -/
def State.wordFault (s : State) : Option (Nat × BitVec 64) :=
  match s.fetchBundle s.act s.me.arch.pc with
  | none => some (0, s.me.arch.pc)
  | some ws =>
    match bundleDefect ws with
    | some (r, m) => some (2, BitVec.ofNat 64 (r * 256 + m))
    | none =>
      let is := (decodeAll ws).getD []
      let m := slotMask isPrivSlot is
      if s.me.arch.priv || m = 0 || (is.any isTransferSlot && (s.heldBy is).isSome) then none
      else match s.sectionFault is with
        | some n => some (2, BitVec.ofNat 64 (5 * 256 + 2 ^ n))
        | none => some (3, BitVec.ofNat 64 m)

/-- The class and detail that a bundle raises from its operands (R131 steps 2 and 4). -/
def State.operandFault (s : State) (is : List Instr) : Option (Nat × BitVec 64) :=
  match s.sectionFault is with
  | some n => some (2, BitVec.ofNat 64 (5 * 256 + 2 ^ n))
  | none => (s.firstSlot State.slotFatal is).map fun e => (0, e.2)

/-- The class for which the next bundle of the acting core is examined at a boundary (R370): what its words raise, or, where
nothing holds it, a target that leaves its section. -/
def State.wordClassOf (s : State) : Option Nat :=
  match s.wordFault with
  | some f => some f.1
  | none =>
    let is := (decodeAll ((s.fetchBundle s.act s.me.arch.pc).getD [])).getD []
    if (s.heldBy is).isNone && (s.sectionFault is).isSome then some 2 else none

end Sys2Proof.Machine
end

