-- ==== Sys2Proof/Machine/Traps.lean ====
section
/-!
DEFINITION. Traps at a boundary (R370 to R374, R385), the watchdog (R56, R383), TEND and PET (R377), and the debug halt (R384):
TRAP_ENTRY, WATCHDOG, TEND_WRITE, PET and the DEBUG steps.
-/
namespace Sys2Proof.Machine

/-! ### The boundary (R370, R373) -/

/-- Does a core stand at a boundary at which a debugger can halt it: in a kernel that is placed and not in a pre-emption
or restore, with work left, and in no trap sequence? -/
def State.openBoundary (s : State) (core : Nat) : Bool :=
  let c := s.core core
  let r := s.rod (rodOf core)
  c.unit.kernel.isSome && !c.unit.ended && !c.dbg.halted && c.seq.trapSeq.isNone && r.placeLeft == 0 && r.pm.state == .on
    && c.offering && !c.seq.klaunch.any (·.result.isSome)

/-- Can a core begin a trap entry: also with no transition and no throttled window (Table 11-1, rows 1 to 5)? -/
def State.atBoundary (s : State) (core : Nat) : Bool :=
  let k := (s.rod (rodOf core)).clk
  s.openBoundary core && !k.throt && !k.relocking

/-- The class that a core's next bundle raises at this boundary, where nothing holds its words. -/
def State.nextClass (s : State) (core : Nat) : Option Nat :=
  let t := ({ s with act := core, slot := 0 } : State).modCore core fun c => { c with latch := c.arch }
  if t.heldEarly.isSome || t.me.unit.starting then none else t.wordClassOf

/-- The pending class with the lowest code, the first of them. -/
def lowestTrap (l : List (Nat × BitVec 64)) : Option (Nat × BitVec 64) :=
  l.foldl (fun (b : Option (Nat × BitVec 64)) e => match b with
    | none => some e
    | some f => if e.1 < f.1 then some e else b) none

/-- The pending trap that a core takes at this boundary (R370, R374, Table 20-13): the next bundle's class goes first where
its code is lower, but it is not examined while a class of the committed bundle is left. -/
def State.nextTrap (s : State) (core : Nat) : Option (Nat × BitVec 64) :=
  let c := s.core core
  if !s.atBoundary core || c.arch.priv then none
  else match lowestTrap c.seq.pendTraps with
    | none => none
    | some e =>
      if c.seq.pendTraps.any fun f => decide (4 ≤ f.1) && decide (f.1 ≤ 6) then some e
      else match s.nextClass core with
        | some k => if k < e.1 then none else some e
        | none => some e

/-- A trap entry that meets a STEP, or a HALT that is pending (Table 20-13). -/
def Core.entryDbg (c : Core) : Core :=
  if c.dbg.step then { c with dbg := { c.dbg with step := false, pend := 3 } }
  else if c.dbg.pend = 1 then { c with dbg := { c.dbg with later := true } }
  else c

/-- TRAP_ENTRY (R373): the pending class is taken, with the next bundle to issue as return address. -/
def execTrapEntry (core : Nat) (s : State) : Out :=
  match s.nextTrap core with
  | none => .next s
  | some e =>
    let s := s.modCore core fun c =>
      { c.entryDbg with seq := { c.seq with pendTraps := c.seq.pendTraps.erase e, klaunch := [] } }
    .next (s.takeTrap core e.1 e.2 (s.core core).arch.pc)

/-! ### The watchdog (R56, R383) -/

/-- The detail of a WATCHDOG that falls due on a core: 0, the limit; 1, a prologue or epilogue; 2, an iteration. -/
def State.watchdogDetail (s : State) (core : Nat) : Option Nat :=
  let c := s.core core
  let lim := (s.ctx ((s.asidOf core).getD 0)).wdog
  if decide (c.unit.wdog ≥ lim) && !c.seq.pendTraps.contains (7, 0) then some 0
  else if c.unit.overrun then none
  else match s.recordOf core with
    | none => none
    | some r =>
      if c.unit.sec = 1 then (if c.unit.secCyc > r.iter then some 2 else none)
      else if c.unit.secCyc > 2048 then some 1 else none

/-- WATCHDOG (R56, R374, R383): it becomes pending, or in privileged mode ends the context. -/
def execWatchdog (core : Nat) (s : State) : Out :=
  match s.watchdogDetail core with
  | none => .next s
  | some d =>
    let s := s.modCore core fun c => { c with unit := { c.unit with overrun := c.unit.overrun || d != 0 } }
    if (s.core core).arch.priv then .next (s.takeTrap core 7 (BitVec.ofNat 64 d) 0)
    else .next (s.pendTrap core 7 (BitVec.ofNat 64 d))

/-- PET (R383). -/
def execPet (core : Nat) (s : State) : Out := .next (s.modCore core fun c => { c with unit := { c.unit with wdog := 0 } })

/-- TEND_WRITE (R377): the context ends with the written status. -/
def execTendWrite (core : Nat) (v : BitVec 64) (s : State) : Out :=
  match s.asidOf core with
  | some asid => .next (s.endContext asid 2 0 (v.toNat % 65536) core 0)
  | none => .next s

/-! ### Debug halt (R384) -/

/-- Can the core halt at this boundary (Table 20-13)? A takeable trap goes first; a HALT that met one waits for unprivileged
mode. -/
def State.canHalt (s : State) (core : Nat) : Bool :=
  let c := s.core core
  s.openBoundary core && (s.nextTrap core).isNone && !(c.dbg.later && c.arch.priv)

/-- DEBUG_HALT (R384): now, at a boundary, or at the next one. -/
def execDebugHalt (core : Nat) (s : State) : Out :=
  let c := s.core core
  if c.dbg.halted then .next s
  else
    let why := if c.dbg.pend = 0 then 1 else c.dbg.pend
    if s.canHalt core then
      .next (s.modCore core fun c => { c with dbg := { c.dbg with halted := true, why := why, pend := 0, later := false } })
    else
      .next (s.modCore core fun c => { c with dbg := { c.dbg with pend := why, later := c.dbg.later || (s.nextTrap core).isSome } })

/-- DEBUG_STEP (R384). -/
def execDebugStep (core : Nat) (s : State) : Out :=
  if (s.core core).dbg.halted then
    .next (s.modCore core fun c => { c with dbg := { c.dbg with halted := false, why := 0, step := true } })
  else .next s

/-- DEBUG_RESUME (R384). -/
def execDebugResume (core : Nat) (s : State) : Out :=
  if (s.core core).dbg.halted then
    .next (s.modCore core fun c => { c with dbg := { c.dbg with halted := false, why := 0 } })
  else .next s

/-- A list with an element replaced, made long enough for it. -/
def setPadded (l : List Core) (i : Nat) (c : Core) : List Core :=
  let l := if i < l.length then l else l ++ List.replicate (i + 1 - l.length) ({} : Core)
  l.set i c

/-- DEBUG_SNAP (R380, R384): a halted core's record is written in memory, and as the model's save record of the kernel (log 28). -/
def execDebugSnap (core : Nat) (s : State) : Out :=
  let c := s.core core
  match s.kernelOf core with
  | none => .next s
  | some k =>
    if !c.dbg.halted then .next s
    else
      .next ((s.putSave core).modKernel k.num fun k => { k with saved := setPadded k.saved c.unit.idx c.landAll })

/-- The operations of a record that a LOAD offers again: those that were not accepted, and that no engine runs now. -/
def Engines.again (e : Engines) (running : Nat → Bool) : List EngOp :=
  (e.eng.filter fun o => !o.accepted && !running o.id).map fun o => match o.kind with
    | .marker _ => o
    | _ => { o with aux := 0 }

/-- The engines of a core that a LOAD restores from a record (R380, R384, log 29): what its engines run stays, under `kept`; the resolve
state and the matrix, copy, fabric and probe operations that were not accepted come from the record, with the registers that a ticket or
a promise holds. -/
def loadedEngines (c saved : Core) (kept : List EngOp) : Engines :=
  let e := c.eng
  let r := saved.eng
  let mine := fun i : Nat => kept.any (·.id == i) || e.mrun.any (·.id == i)
  let fresh := fun p : Probe => { p with accepted := false }
  { e with
    resolve := r.resolve
    mq := (r.mq.filter fun m => !mine m.id).map fun m : MOp => { m with issued := c.cyc }
    eng := kept ++ r.again mine
    probes := r.probes.map fresh
    aside := r.aside.map fresh
    probeCmd := r.probeCmd
    ilk := (e.ilk.filter fun l => e.memq.any (·.id == l.id) || e.spec.any (·.id == l.id)) ++
      r.ilk.filter fun l => saved.seq.ticketWait.any (·.1 == l.id) || saved.seq.promWait.any (·.1 == l.xd) }

/-- The records of operations after a LOAD: those that are offered again have theirs as it was, with no promise, and the others of the
core as they are now. -/
def loadedOps (c saved : Core) (e : Engines) : List TokOp :=
  let again := fun i : Nat => (e.mq.any (·.id == i)) || (e.eng.any fun o => o.id == i && !o.accepted) ||
    (e.probes ++ e.aside).any (·.id == i)
  let late := (saved.arch.ops.filter fun o => again o.id).map fun o : TokOp => { o with st := .unpromised, promise := none }
  let now := c.arch.ops.filter fun o => !late.any (·.id == o.id)
  late ++ now ++ saved.arch.ops.filter fun o => !(late ++ now).any (·.id == o.id)

/-- A core restored by a debugger (R384): its program's state and scratchpad, and the operations that its engines had not accepted. -/
def loadedCore (c saved : Core) (kept : List EngOp) : Core :=
  let e := loadedEngines c saved kept
  let arch := { saved.arch with ops := loadedOps c saved e }
  let q := saved.seq
  { c with
    arch := arch, latch := arch, spad := saved.spad, eng := e, uid := Nat.max c.uid saved.uid,
    unit := { saved.unit with kernel := c.unit.kernel, idx := c.unit.idx },
    seq := { c.seq with heldLoops := q.heldLoops, heldSleep := q.heldSleep, sleepTo := q.sleepTo, fence := q.fence,
                        heldFence := q.heldFence, heldTo := q.heldTo, walk := q.walk, klaunch := [],
                        ticketWait := q.ticketWait, promWait := q.promWait } }

/-- DEBUG_LOAD (R384): nothing where the record has never been written. -/
def execDebugLoad (core : Nat) (s : State) : Out :=
  let c := s.core core
  match s.kernelOf core with
  | none => .next s
  | some k =>
    if !c.dbg.halted then .next s
    else match k.saved[c.unit.idx]? with
      | some r =>
        if r.unit.kernel.isNone then .next s
        else
          let ref := s.refOf core
          let kept := c.eng.eng.filter fun o => o.accepted || s.matched ref o.id
          let gone := c.eng.eng.filter fun o => !(o.accepted || s.matched ref o.id)
          let s := gone.foldl (fun (s : State) o => s.cancelOp ref o.id) s
          .next (s.modCore core fun c => loadedCore c r kept)
      | none => .next s

end Sys2Proof.Machine
end

