-- ==== Sys2Proof/Machine/Ctl.lean ====
section
/-!
DEFINITION. The control registers (R153, R154, R407): RDCTL and WRCTL over every register of Table 22-4, field by field under the
access codes of R5, and the host's register writes (R61, R384): BAR0_REGISTER_WRITE.
-/
namespace Sys2Proof.Machine

/-- A number as a register's value. -/
def reg64 (n : Nat) : BitVec 64 := BitVec.ofNat 64 n

/-- A bit at a place of a register. -/
def regBit (b : Bool) (i : Nat) : Nat := if b then 2 ^ i else 0

/-- PQSTAT (Table 16-8). -/
def State.pqstat (s : State) (core : Nat) : BitVec 64 :=
  let k := (s.core core).latch.ctl
  reg64 (regBit k.pqEmpty 32 + regBit k.pqRefused 31 + (s.pqMine core).length)

/-- STGCFG (Table 13-1). -/
def Slice.stgcfg (sl : Slice) : BitVec 64 := reg64 (regBit sl.busy 31 + sl.waysCfg)

/-- FTDATA (Table 12-8), at the place that FTIDX names. -/
def State.ftdata (s : State) (core : Nat) : BitVec 64 :=
  (s.panel (panelOf core)).trace.getD (s.core core).latch.ctl.ftidx.toNat 0

/-- IDENT (Table 22-8). -/
def ident (core : Nat) : BitVec 64 := reg64 (0x0256 * 2 ^ 48 + steppingCode * 2 ^ 40 + core)

/-- PMSYNC (Table 14-5). -/
def PageSync.pmsync (p : PageSync) : BitVec 64 := reg64 (regBit p.busy 63 + regBit p.refused 62)

/-- GRANT of a rod as it reads: the value last written (Tables 11-5, 12-14). -/
def RodClock.rgrant (k : RodClock) : BitVec 64 := reg64 (k.grantNext.getD k.grant)

/-- A context's register as a bundle reads it, by index: those that are plain values (R153). -/
def Ctl.plain (k : Ctl) (n : Nat) : BitVec 64 := match n with
  | 0x028 => k.mcfg
  | 0x048 => k.ftidx.zeroExtend 64
  | 0x058 => k.ringsel.zeroExtend 64
  | 0x068 => k.predcfg
  | 0x074 => k.errstat
  | 0x101 => k.tepc
  | 0x102 => k.tcause
  | 0x103 => k.tdetail
  | 0x104 => k.tsv.getD 0 0
  | 0x105 => k.tsv.getD 1 0
  | 0x106 => k.tsv.getD 2 0
  | 0x107 => k.tsv.getD 3 0
  | 0x170 => k.pfinfo
  | 0x171 => k.pfcoord
  | 0x172 => k.pfrem
  | 0x173 => k.pfia
  | _ => 0

/-- A package-wide register that is a plain value. -/
def Regs.plain (r : Regs) (n : Nat) : BitVec 64 := match n with
  | 0x060 => r.domain.zeroExtend 64
  | 0x150 => r.rpmsel.zeroExtend 64
  | 0x160 => r.pmbase
  | 0x162 => r.mnbase
  | 0x163 => r.mncfg
  | 0x164 => r.mnptr
  | 0x168 => r.elbase
  | 0x169 => r.elcfg
  | 0x16A => r.elptr
  | 0x16B => r.eccnt
  | 0x180 => r.chsel
  | 0x1A0 => r.lacesel
  | 0x1B0 => r.idleacct
  | _ => 0

/-- The value of a control register, as the acting core reads it (Table 22-4); write-only registers and unlisted indices read
zero (R5, R407). -/
def State.ctlRead (s : State) (n : Nat) : BitVec 64 :=
  let core := s.act
  let c := s.me
  let rod := s.rod (rodOf core)
  match n with
  | 0x010 => reg64 s.tick
  | 0x020 => (c.rdFlags core s.slot).zeroExtend 64
  | 0x030 => c.acct.acs.base
  | 0x031 => c.acct.acs.cfg
  | 0x032 => c.acct.acs.tail.zeroExtend 64
  | 0x040 => rod.clk.rodbal
  | 0x041 => rod.clk.wsum
  | 0x044 => s.opstat core
  | 0x049 => s.ftdata core
  | 0x04A => reg64 ((s.panel (panelOf core)).ftcnt % 2 ^ 32)
  | 0x050 => rod.slice.stgcfg
  | 0x059 => s.ringcfg core
  | 0x05A => s.ringstat core
  | 0x05C => s.pqstat core
  | 0x070 => reg64 (c.unit.wdog % 2 ^ 48)
  | 0x100 => c.tvec
  | 0x140 => rod.clk.rgrant
  | 0x144 => s.readBoostcfg
  | 0x145 => s.readPkcap
  | 0x146 => s.readThermcfg
  | 0x152 => s.rpmstat s.regs.rpmsel.toNat
  | 0x153 => (s.rod s.regs.rpmsel.toNat).clk.rgrant
  | 0x161 => s.pm.pmsync
  | 0x16C => s.errors.errinj
  | 0x181 => s.chbind
  | 0x190 => (s.die (dieOf core)).gatecfg
  | 0x191 => (s.die (dieOf core)).readGateload
  | 0x1A1 => s.lacedata
  | 0x1F0 => ident core
  | n => c.latch.ctl.plain n ||| s.regs.plain n

/-- RDCTL (R153): an index of 0x100 or above is privileged. -/
def execRdctl (xd : BitVec 5) (n : BitVec 9) (s : State) : Out :=
  if n.toNat ≥ 0x100 && !s.me.latch.priv then privTrap s else xForm xd (s.ctlRead n.toNat) s

/-- A context's plain register as a write leaves it: bits under `mask` are set, those under `w1c` are cleared by ones (R5). -/
def wrBits (old mask w1c v : BitVec 64) : BitVec 64 := (setBits old mask v) &&& ~~~(v &&& w1c)

/-- A write of a plain register of the context. -/
def Ctl.write (k : Ctl) (n : Nat) (v : BitVec 64) : Ctl := match n with
  | 0x048 => { k with ftidx := v.truncate 8 }
  | 0x058 => { k with ringsel := v.truncate 8 }
  | 0x05C => { k with pqEmpty := k.pqEmpty && !rbit v 32, pqRefused := k.pqRefused && !rbit v 31 }
  | 0x068 => { k with predcfg := v &&& 0x37FFF#64 }
  | 0x074 => { k with errstat := wrBits k.errstat 0 1 v }
  | 0x101 => { k with tepc := v &&& ~~~3#64 }
  | 0x104 => { k with tsv := k.tsv.setIfInBounds 0 v }
  | 0x105 => { k with tsv := k.tsv.setIfInBounds 1 v }
  | 0x106 => { k with tsv := k.tsv.setIfInBounds 2 v }
  | 0x107 => { k with tsv := k.tsv.setIfInBounds 3 v }
  | _ => k

/-- A write of a plain package-wide register. -/
def Regs.write (r : Regs) (n : Nat) (v : BitVec 64) : Regs := match n with
  | 0x150 => { r with rpmsel := v.truncate 6 }
  | 0x160 => { r with pmbase := v &&& 0xFFFFFFFFF0000#64 }
  | 0x162 => { r with mnbase := v &&& 0xFFFFFFFFFFFF0#64 }
  | 0x163 => { r with mncfg := wrBits r.mncfg 0x3FFF0000011F 0x200 v }
  | 0x164 => { r with mnptr := setBits r.mnptr 0xFFFFFFFF00000000#64 v }
  | 0x168 => { r with elbase := v &&& 0xFFFFFFFFFFFE0#64 }
  | 0x169 => { r with elcfg := wrBits r.elcfg 0x1D1F 0x200 v }
  | 0x16A => { r with elptr := setBits r.elptr 0xFFFFFFFF00000000#64 v }
  | 0x16B => { r with eccnt := v }
  | 0x180 => { r with chsel := v &&& 0xFF#64 }
  | 0x1A0 => { r with lacesel := v &&& 0x3FF#64 }
  | 0x1B0 => { r with idleacct := v &&& ~~~0x3F#64 }
  | _ => r

/-- GRANT of a rod written, from the next window on (R216). -/
def State.grantWrite (s : State) (rod : Nat) (v : BitVec 64) : State :=
  s.modRod rod fun r => { r with clk := { r.clk with grantNext := some (rfield v 0 13) } }

/-- A write of ACSBASE, which is ignored while EN is 1 (R223). -/
def State.acsbaseWrite (s : State) (core : Nat) (v : BitVec 64) : State :=
  s.modCore core fun c => c.modAcs fun a => if a.en then a else { a with base := v &&& ~~~0x3F#64 }

/-- A control register written by the acting core (Table 22-4). Writes to read-only registers and to unlisted indices are
ignored (R153). -/
def State.ctlWrite (s : State) (n : Nat) (v : BitVec 64) : Out :=
  let core := s.act
  match n with
  | 0x020 => .next (s.onMe fun c => c.writeFlags core s.slot (v.truncate 6))
  | 0x030 => .next (s.acsbaseWrite core v)
  | 0x031 => s.acscfgWrite core v
  | 0x050 => execStagingResize (rodOf core) (rfield v 0 5) s
  | 0x059 => .next (s.ringcfgWrite core v)
  | 0x070 => if rbit v 63 then execPet core s else .next s
  | 0x100 => .next (s.onMe fun c => { c with tvec := v &&& ~~~0xFFF#64 })
  | 0x108 => execTendWrite core v s
  | 0x140 => .next (s.grantWrite (rodOf core) v)
  | 0x144 => .next (s.boostcfgWrite v)
  | 0x145 => .next { s with power := { s.power with avgw := v.extractLsb' 16 16, peakw := v.truncate 16 } }
  | 0x146 => .next { s with power := { s.power with thop := rfield v 10 3, thr := v.truncate 10 } }
  | 0x151 => s.rpmcmdWrite v
  | 0x153 => .next (s.grantWrite s.regs.rpmsel.toNat v)
  | 0x154 => execWake (rfield v 0 8) s
  | 0x161 => s.pmsyncWrite v
  | 0x16C => execErrinjWrite v s
  | 0x181 => s.chbindWrite v
  | 0x190 => execGatecfgWrite (dieOf core) v s
  | 0x191 => execGateLoad (dieOf core) v s
  | n => .next (({ s with regs := s.regs.write n v } : State).onMe fun c =>
      c.modArch fun a => { a with ctl := a.ctl.write n v })

/-- WRCTL (R153). -/
def execWrctl (xs : BitVec 5) (n : BitVec 9) (s : State) : Out :=
  if n.toNat ≥ 0x100 && !s.me.latch.priv then privTrap s else s.ctlWrite n.toNat (s.rx xs)

/-! ### The host's register writes (R61, R384) -/

/-- DBGCTL of a core as it reads (Table 20-12). -/
def Dbg.dbgctl (d : Dbg) : BitVec 64 := reg64 (d.why * 256 + regBit d.halted 7 + regBit d.attach 0)

/-- A context status entry as it reads, by doubleword (Tables 22-1 to 22-3). -/
def CtxStatus.dword (e : CtxStatus) (i : Nat) : BitVec 64 := match i with
  | 0 => e.ctxst0
  | 1 => e.ctxend
  | 2 => e.ctxdet
  | _ => 0

/-- A register of a launch queue as it reads, by doubleword (Tables 4-2 to 4-5). -/
def LaunchQ.dword (l : LaunchQ) (i : Nat) : BitVec 64 := match i with
  | 0 => l.base
  | 1 => l.cfg
  | 2 => l.tail.zeroExtend 64
  | _ => l.head.zeroExtend 64

/-- What the host reads at an offset of BAR0 (R61, R384, R405): the launch queue registers, DBGCTL, and the context status entries. Any
other offset reads zero. -/
def State.bar0 (s : State) (off : Nat) : BitVec 64 :=
  if 0x10000 ≤ off && off < 0x10800 then (s.lq ((off - 0x10000) / 32)).dword ((off - 0x10000) % 32 / 8)
  else if 0x20000 ≤ off && off < 0x21000 then (if off % 16 < 8 then (s.core ((off - 0x20000) / 16)).dbg.dbgctl else 0)
  else if 0x30000 ≤ off && off < 0x34000 then (s.status ((off - 0x30000) / 32)).dword ((off - 0x30000) % 32 / 8)
  else 0

/-- A write of DBGCTL (Table 20-12): ATTACH is set; each of the other bits starts its action, in the order SNAP, LOAD, STEP,
RESUME, HALT. -/
def State.dbgctlWrite (s : State) (core : Nat) (v : BitVec 64) : Out :=
  let s := s.modCore core fun c => { c with dbg := { c.dbg with attach := rbit v 0 } }
  let go := fun (i : Nat) (f : Nat → State → Out) (o : Out) => if rbit v i then Out.andThen o (f core) else o
  go 1 execDebugHalt (go 2 execDebugResume (go 3 execDebugStep (go 5 execDebugLoad (go 4 execDebugSnap (.next s)))))

/-- BAR0_REGISTER_WRITE (R61, R384): a write at an offset of BAR0; offsets that name no register take none. -/
def execBar0RegisterWrite (off : Nat) (v : BitVec 64) (s : State) : Out :=
  if 0x10000 ≤ off && off < 0x10800 then
    let q := (off - 0x10000) / 32
    match (off - 0x10000) % 32 with
    | 0x00 => .next (s.modLq q fun l => { l with base := v &&& 0xFFFFFFFFFFFC0#64 })
    | 0x08 => execLqcfgWrite q v s
    | 0x10 => execDoorbell q v s
    | _ => .next s
  else if 0x20000 ≤ off && off < 0x21000 && off % 16 == 0 then s.dbgctlWrite ((off - 0x20000) / 16) v
  else .next s

end Sys2Proof.Machine
end

