-- ==== Sys2Proof/Machine/Scalar.lean ====
section
/-!
DEFINITION. The scalar groups: register-register (R140, R141), immediate (R142), upper immediates (R143), and the moves,
predicate operations and selection (R152).
-/
namespace Sys2Proof.Machine

/-- The clamp of a quotient to the signed range (R141). -/
def clampS (v : Int) : Word :=
  if v < -9223372036854775808 then BitVec.ofInt 64 (-9223372036854775808)
  else if v > 9223372036854775807 then BitVec.ofInt 64 9223372036854775807
  else BitVec.ofInt 64 v

/-- DIV: truncated, then saturated; a zero divisor gives the end of the range by the dividend's sign (R141). -/
def divS (a b : Word) : Word :=
  if b = 0 then (if a = 0 then 0 else if a.msb then BitVec.ofInt 64 (-9223372036854775808)
    else BitVec.ofInt 64 9223372036854775807)
  else clampS (Int.tdiv a.toInt b.toInt)

/-- DIVU (R141). -/
def divU (a b : Word) : Word :=
  if b = 0 then (if a = 0 then 0 else BitVec.allOnes 64) else BitVec.ofNat 64 (a.toNat / b.toNat)

/-- REM: the sign of the dividend; a zero divisor gives the dividend (R141). -/
def remS (a b : Word) : Word := if b = 0 then a else BitVec.ofInt 64 (Int.tmod a.toInt b.toInt)

/-- REMU (R141). -/
def remU (a b : Word) : Word := if b = 0 then a else BitVec.ofNat 64 (a.toNat % b.toNat)

/-- Shift left by the whole unsigned count (Table 8-1). -/
def shl64 (a b : Word) : Word := if b.toNat ≥ 64 then 0 else a <<< b.toNat
/-- Shift right, zero fill. -/
def shr64 (a b : Word) : Word := if b.toNat ≥ 64 then 0 else a >>> b.toNat
/-- Shift right, sign fill. -/
def sar64 (a b : Word) : Word := if b.toNat ≥ 64 then (if a.msb then BitVec.allOnes 64 else 0) else a.sshiftRight b.toNat
/-- Rotate right by the count mod 64. -/
def ror64 (a b : Word) : Word := a.rotateRight (b.toNat % 64)

/-- Leading zero bits among the low `n` bits (CLZ with `n` = 64). -/
def clzGo (a : Word) : Nat → Nat
  | 0 => 0
  | n + 1 => if a.getLsbD n then 0 else 1 + clzGo a n

/-- Trailing zero bits from bit `i` up, of `n` bits left. -/
def ctzGo (a : Word) (i : Nat) : Nat → Nat
  | 0 => 0
  | n + 1 => if a.getLsbD i then 0 else 1 + ctzGo a (i + 1) n

/-- One bits among the low `n` bits. -/
def popGo (a : Word) : Nat → Nat
  | 0 => 0
  | n + 1 => (if a.getLsbD n then 1 else 0) + popGo a n

/-- ADD (Table 8-1). -/
def execAdd (pg : BitVec 3) (xd xa xb : BitVec 5) (s : State) : Out :=
  rrForm 1 (fun a b => a + b) pg xd xa xb s
/-- SUB (Table 8-1). -/
def execSub (pg : BitVec 3) (xd xa xb : BitVec 5) (s : State) : Out :=
  rrForm 1 (fun a b => a - b) pg xd xa xb s
/-- AND (Table 8-1). -/
def execAnd (pg : BitVec 3) (xd xa xb : BitVec 5) (s : State) : Out :=
  rrForm 1 (fun a b => a &&& b) pg xd xa xb s
/-- OR (Table 8-1). -/
def execOr (pg : BitVec 3) (xd xa xb : BitVec 5) (s : State) : Out :=
  rrForm 1 (fun a b => a ||| b) pg xd xa xb s
/-- XOR (Table 8-1). -/
def execXor (pg : BitVec 3) (xd xa xb : BitVec 5) (s : State) : Out :=
  rrForm 1 (fun a b => a ^^^ b) pg xd xa xb s
/-- ANDN (Table 8-1). -/
def execAndn (pg : BitVec 3) (xd xa xb : BitVec 5) (s : State) : Out :=
  rrForm 1 (fun a b => a &&& ~~~b) pg xd xa xb s
/-- SLL (Table 8-1). -/
def execSll (pg : BitVec 3) (xd xa xb : BitVec 5) (s : State) : Out :=
  rrForm 1 (fun a b => shl64 a b) pg xd xa xb s
/-- SRL (Table 8-1). -/
def execSrl (pg : BitVec 3) (xd xa xb : BitVec 5) (s : State) : Out :=
  rrForm 1 (fun a b => shr64 a b) pg xd xa xb s
/-- SRA (Table 8-1). -/
def execSra (pg : BitVec 3) (xd xa xb : BitVec 5) (s : State) : Out :=
  rrForm 1 (fun a b => sar64 a b) pg xd xa xb s
/-- ROR (Table 8-1). -/
def execRor (pg : BitVec 3) (xd xa xb : BitVec 5) (s : State) : Out :=
  rrForm 1 (fun a b => ror64 a b) pg xd xa xb s
/-- MUL (Table 8-1). -/
def execMul (pg : BitVec 3) (xd xa xb : BitVec 5) (s : State) : Out :=
  rrForm 3 (fun a b => a * b) pg xd xa xb s
/-- MULH (Table 8-1). -/
def execMulh (pg : BitVec 3) (xd xa xb : BitVec 5) (s : State) : Out :=
  rrForm 3 (fun a b => BitVec.ofInt 64 (a.toInt * b.toInt / 2 ^ 64)) pg xd xa xb s
/-- MULHU (Table 8-1). -/
def execMulhu (pg : BitVec 3) (xd xa xb : BitVec 5) (s : State) : Out :=
  rrForm 3 (fun a b => BitVec.ofNat 64 (a.toNat * b.toNat / 2 ^ 64)) pg xd xa xb s
/-- DIV (Table 8-1). -/
def execDiv (pg : BitVec 3) (xd xa xb : BitVec 5) (s : State) : Out :=
  rrForm 24 (fun a b => divS a b) pg xd xa xb s
/-- DIVU (Table 8-1). -/
def execDivu (pg : BitVec 3) (xd xa xb : BitVec 5) (s : State) : Out :=
  rrForm 24 (fun a b => divU a b) pg xd xa xb s
/-- REM (Table 8-1). -/
def execRem (pg : BitVec 3) (xd xa xb : BitVec 5) (s : State) : Out :=
  rrForm 24 (fun a b => remS a b) pg xd xa xb s
/-- REMU (Table 8-1). -/
def execRemu (pg : BitVec 3) (xd xa xb : BitVec 5) (s : State) : Out :=
  rrForm 24 (fun a b => remU a b) pg xd xa xb s
/-- MIN (Table 8-1). -/
def execMin (pg : BitVec 3) (xd xa xb : BitVec 5) (s : State) : Out :=
  rrForm 1 (fun a b => if a.slt b then a else b) pg xd xa xb s
/-- MAX (Table 8-1). -/
def execMax (pg : BitVec 3) (xd xa xb : BitVec 5) (s : State) : Out :=
  rrForm 1 (fun a b => if a.slt b then b else a) pg xd xa xb s
/-- MINU (Table 8-1). -/
def execMinu (pg : BitVec 3) (xd xa xb : BitVec 5) (s : State) : Out :=
  rrForm 1 (fun a b => if a.ult b then a else b) pg xd xa xb s
/-- MAXU (Table 8-1). -/
def execMaxu (pg : BitVec 3) (xd xa xb : BitVec 5) (s : State) : Out :=
  rrForm 1 (fun a b => if a.ult b then b else a) pg xd xa xb s
/-- SLT (Table 8-1). -/
def execSlt (pg : BitVec 3) (xd xa xb : BitVec 5) (s : State) : Out :=
  rrForm 1 (fun a b => boolWord (a.slt b)) pg xd xa xb s
/-- SLTU (Table 8-1). -/
def execSltu (pg : BitVec 3) (xd xa xb : BitVec 5) (s : State) : Out :=
  rrForm 1 (fun a b => boolWord (a.ult b)) pg xd xa xb s
/-- SEQ (Table 8-1). -/
def execSeq (pg : BitVec 3) (xd xa xb : BitVec 5) (s : State) : Out :=
  rrForm 1 (fun a b => boolWord (a == b)) pg xd xa xb s
/-- CLZ (Table 8-1). -/
def execClz (pg : BitVec 3) (xd xa : BitVec 5) (s : State) : Out :=
  rrForm 1 (fun a _ => BitVec.ofNat 64 (clzGo a 64)) pg xd xa 0 s
/-- CTZ (Table 8-1). -/
def execCtz (pg : BitVec 3) (xd xa : BitVec 5) (s : State) : Out :=
  rrForm 1 (fun a _ => BitVec.ofNat 64 (ctzGo a 0 64)) pg xd xa 0 s
/-- POPC (Table 8-1). -/
def execPopc (pg : BitVec 3) (xd xa : BitVec 5) (s : State) : Out :=
  rrForm 1 (fun a _ => BitVec.ofNat 64 (popGo a 64)) pg xd xa 0 s

/-- ADDI (Table 8-2). -/
def execAddi (xd xa : BitVec 5) (imm : BitVec 10) (s : State) : Out := xForm xd (s.rx xa + sext64 imm) s
/-- ANDI (Table 8-2). -/
def execAndi (xd xa : BitVec 5) (imm : BitVec 10) (s : State) : Out := xForm xd (s.rx xa &&& sext64 imm) s
/-- ORI (Table 8-2). -/
def execOri (xd xa : BitVec 5) (imm : BitVec 10) (s : State) : Out := xForm xd (s.rx xa ||| sext64 imm) s
/-- XORI (Table 8-2). -/
def execXori (xd xa : BitVec 5) (imm : BitVec 10) (s : State) : Out := xForm xd (s.rx xa ^^^ sext64 imm) s
/-- SLTI (Table 8-2). -/
def execSlti (xd xa : BitVec 5) (imm : BitVec 10) (s : State) : Out := xForm xd (boolWord ((s.rx xa).slt (sext64 imm))) s
/-- SLTUI (Table 8-2). -/
def execSltui (xd xa : BitVec 5) (imm : BitVec 10) (s : State) : Out := xForm xd (boolWord (decide ((s.rx xa).toNat < imm.toNat))) s
/-- MULI (Table 8-2), bound 3 (R139). -/
def execMuli (xd xa : BitVec 5) (imm : BitVec 10) (s : State) : Out :=
  let v := s.rx xa * sext64 imm
  .next (s.onMe fun c => c.putXLate 3 xd v)
/-- SLLI (Table 8-2). -/
def execSlli (xd xa : BitVec 5) (imm : BitVec 6) (s : State) : Out := xForm xd ((s.rx xa) <<< imm.toNat) s
/-- SRLI (Table 8-2). -/
def execSrli (xd xa : BitVec 5) (imm : BitVec 6) (s : State) : Out := xForm xd ((s.rx xa) >>> imm.toNat) s
/-- SRAI (Table 8-2). -/
def execSrai (xd xa : BitVec 5) (imm : BitVec 6) (s : State) : Out := xForm xd ((s.rx xa).sshiftRight imm.toNat) s

/-- `imm18 * 2^14`, sign-extended from bit 31 (R143). -/
def upperImm (imm : BitVec 18) : Word := sext64 (imm ++ (0 : BitVec 14))
/-- LUI (R143). -/
def execLui (xd : BitVec 5) (imm : BitVec 18) (s : State) : Out := xForm xd (upperImm imm) s
/-- AUIPC (R143). -/
def execAuipc (xd : BitVec 5) (imm : BitVec 18) (s : State) : Out := xForm xd (s.me.latch.pc + upperImm imm) s

/-- MOVXA (Table 8-6). -/
def execMovxa (ar : BitVec 4) (xs : BitVec 5) (s : State) : Out :=
  let v := s.rx xs
  .next (s.onMe fun c => c.putA ar v)
/-- MOVAX (Table 8-6). -/
def execMovax (xd : BitVec 5) (ar : BitVec 4) (s : State) : Out := xForm xd (s.ra ar) s
/-- MOVXC (Table 8-6): bits[5:0]. -/
def execMovxc (cr : BitVec 2) (xs : BitVec 5) (s : State) : Out :=
  let v := (s.rx xs).extractLsb' 0 6
  .next (s.onMe fun c => c.putC cr v)
/-- MOVCX (Table 8-6). -/
def execMovcx (xd : BitVec 5) (cr : BitVec 2) (s : State) : Out := xForm xd (zext64 (s.me.rdC cr)) s
/-- PSET (Table 8-6). -/
def execPset (pd : BitVec 3) (xa : BitVec 5) (s : State) : Out :=
  let v := s.rx xa != 0
  .next (s.onMe fun c => c.putP pd v)
/-- PAND (Table 8-6). -/
def execPand (pd pa pb : BitVec 3) (s : State) : Out :=
  let v := s.me.rdP pa && s.me.rdP pb
  .next (s.onMe fun c => c.putP pd v)
/-- POR (Table 8-6). -/
def execPor (pd pa pb : BitVec 3) (s : State) : Out :=
  let v := s.me.rdP pa || s.me.rdP pb
  .next (s.onMe fun c => c.putP pd v)
/-- PXOR (Table 8-6). -/
def execPxor (pd pa pb : BitVec 3) (s : State) : Out :=
  let v := s.me.rdP pa != s.me.rdP pb
  .next (s.onMe fun c => c.putP pd v)
/-- PNOT (Table 8-6). -/
def execPnot (pd pa : BitVec 3) (s : State) : Out :=
  let v := !s.me.rdP pa
  .next (s.onMe fun c => c.putP pd v)
/-- SEL (Table 8-6). -/
def execSel (xd xa xb : BitVec 5) (pn : BitVec 3) (s : State) : Out :=
  xForm xd (if s.me.rdP pn then s.rx xa else s.rx xb) s
/-- NOP changes nothing (Table 8-8). -/
def execNop (s : State) : Out := .next s

end Sys2Proof.Machine
end

