-- ==== Sys2Proof/Machine/Soft.lean ====
section
/-!
DEFINITION. Errors of chance in the storage arrays and their fates (R386, R388, R389, R391, Table 21-2), and the steps
PATROL_SCRUB and WAY_QUARANTINE. An error of chance is a step from outside; `execPatrolScrub` says how its number names it.
-/
namespace Sys2Proof.Machine

/-- The contexts that an error names are ended, and the error is recorded: contained, or, where it names none, lost with no owner. -/
def State.endAllAndLog (s : State) (asids : List Nat) (r : ErrRec) : State :=
  if asids.isEmpty then s.logError { r with severity := 3 }
  else
    let e := asids.foldl (fun (acc : List (Nat × Bool) × State) a =>
      let n := acc.2.endNamed a r.source r.line
      (acc.1 ++ [n.1], n.2)) ([], s)
    e.2.logError { r with severity := 2, named := e.1 }

/-- The same, of one context at most. -/
def State.endAndLog (s : State) (asid : Option Nat) (r : ErrRec) : State := s.endAllAndLog asid.toList r

/-- A core array is lost (Table 21-2): the context that holds the core is ended; a shared stage's kernel retires with it. -/
def State.loseCore (s : State) (core : Nat) (r : ErrRec) : State :=
  let k := s.kernelOf core
  let s := s.endAndLog (k.map (·.asid)) r
  match k with
  | some k => if s.sharedStage k then s.failStage k else s
  | none => s

/-- Stores of a core to a line of its L1 that have not reached their home slice are lost: memory keeps its older bytes (Table
21-2). -/
def State.loseStores (s : State) (core line : Nat) : State :=
  s.modCore core fun c => { c with eng := { c.eng with
    memq := c.eng.memq.filter fun o => !(o.kind.isStore && !o.performed && o.loc.l1Addr.any fun a => a / 128 == line) } }

/-- An uncorrectable error in a line of an L1 (Table 21-2): a clean line is fetched again; a dirty one ends its owner. -/
def State.loseL1 (s : State) (core : Nat) (g : L1Group) (i : Nat) : State :=
  let bit := BitVec.ofNat 4 (2 ^ i)
  let line := 4 * g.blk + i
  let dirty := g.dirty &&& bit != 0
  let r : ErrRec := { line := if dirty || line < 2 ^ 45 then line * 128 else 0, unit := core, source := 1, domain := s.regs.domain.toNat }
  let s := s.modCore core fun c => { c with l1 := c.l1.map fun h =>
    if h.blk = g.blk then { h with valid := h.valid &&& ~~~bit, dirty := h.dirty &&& ~~~bit } else h }
  if dirty then (s.loseStores core line).endAndLog (s.asidOf core) r
  else (s.countEcc false).logError { r with severity := 1 }

/-- The lines of a way leave a slice, with its staging contents: the spare way takes the number of the failed way, or the way is
disabled (R395). Operations under way that name the way's staging find zeros there in the end (Table 21-11). -/
def State.loseWay (s : State) (slice way : Nat) (spare : Bool) : State :=
  let s := s.dropWays slice fun w => w == way
  let mark := fun o : EngOp => if o.accepted then { o with lost := (slice, way) :: o.lost } else o
  let markAll := fun c : Core => { c with eng := { c.eng with eng := c.eng.eng.map mark } }
  let s := if way < (s.rod slice).slice.ways then { s with cores := s.cores.map markAll } else s
  s.modRod slice fun r =>
    let sl := r.slice
    let sl := { sl with staging := if way < sl.ways then sl.staging.filter (fun b => b.1 / 524288 != way) else sl.staging }
    { r with slice := if spare then sl else { sl with disabled := way :: sl.disabled } }

/-- WAY_QUARANTINE (R395): dirty lines are written back and the way is emptied. An error found in doing so is of the same quarantine. -/
def execWayQuarantine (slice way : Nat) (s : State) : Out :=
  match s.errors.quarantine.find? fun e => e.1 == slice && e.2.1 == way with
  | none => .next s
  | some e =>
    if s.tick < e.2.2.1 then .next s
    else
      let s := s.loseWay slice way e.2.2.2
      .next ({ s with errors := { s.errors with quarantine := s.errors.quarantine.filter (· != e) } } : State).endContain

/-- An uncorrectable error in a staging way (Table 21-2): its bytes read zero, the holder of the rod is ended and the way is
quarantined. -/
def State.loseStaging (s : State) (slice way : Nat) : State :=
  let s := s.modRod slice fun r => { r with slice := { r.slice with
    staging := r.slice.staging.filter fun b => b.1 / 524288 != way } }
  let (a, s) := s.startQuarantine slice way
  s.endAndLog (((s.rod slice).kernel.bind s.kernel?).map (·.asid))
    { unit := slice, way := way, source := 3, actions := a, domain := s.regs.domain.toNat }

/-- The contexts with a pipeline through a lacer stage entry, or the context of a pipeline entry. -/
def State.laceOwners (s : State) (stage : Bool) (e : Nat) : List Nat :=
  (s.pipeList.filter fun p => if stage then p.2.path.contains e || p.2.catchup.contains e else p.1 == e).map (·.2.asid)

/-- The fate of an uncorrectable error in an array of the package that is no line of the L2 or the DRAM (Table 21-2), by the array's
number and a place in it; see `execPatrolScrub`. -/
def State.softFate (s : State) (array w : Nat) : State :=
  let shared : ErrRec := { source := 8, domain := s.regs.domain.toNat }
  let core := w % 256
  match array with
  | 3 => s.loseCore core { unit := core, source := 0, domain := s.regs.domain.toNat }
  | 4 => s.modCore core fun c => { c with flaw := some true }
  | 5 => match (s.core core).l1[w / 1024]? with
    | some g => if g.valid.getLsbD (w / 256 % 4) then s.loseL1 core g (w / 256 % 4) else s
    | none => s
  | 6 => if w / 64 % 16 < (s.rod (w % 64)).slice.ways then s.loseStaging (w % 64) (w / 64 % 16) else s
  | 7 => match (s.die (w % 2)).pq[w / 2]? with
    | some e => (s.modDie (w % 2) fun d => { d with pq := d.pq.erase e }).endAndLog (some e.asid) shared
    | none => s
  | 8 =>
    let g := (s.die (w % 2)).gatecfg
    (s.modDie (w % 2) fun d => { d with gatecfg := d.gatecfg &&& ~~~1#64 }).endAndLog (some (rfield g 31 9)) shared
  | 9 => s.endAllAndLog (s.laceOwners (w / 256 % 2 = 0) core).eraseDups shared
  | 11 => s.endAllAndLog [] shared
  | _ => s

/-- A correctable error in such an array is counted, and recorded when CEREC is set (R386). -/
def State.softCorrected (s : State) (array w : Nat) : State :=
  let r : ErrRec := { domain := s.regs.domain.toNat }
  match array with
  | 3 => s.countCorrected false { r with unit := w % 256 }
  | 4 => s.modCore (w % 256) fun c => { c with flaw := some false }
  | 5 => s.countCorrected false { r with unit := w % 256, source := 1 }
  | 6 => s.countCorrected false { r with unit := w % 64, way := w / 64 % 16, source := 3 }
  | _ => s.countCorrected false { r with source := 8 }

/-- An error of chance. -/
def State.softError (s : State) (array : Nat) (lost : Bool) (w : Nat) : State :=
  let plant := fun dram : Bool => { s with errors := { s.errors with planted := (w, dram, lost) :: s.errors.planted } }
  if array = 1 then (if s.l2Holds w then plant false else s)
  else if array = 2 then plant true
  else if array = 10 then s.modCore (w % 256) fun c => { c with predBad := w / 256 % 4096 :: c.predBad }
  else if array > 11 then s
  else if lost then s.softFate array w
  else s.softCorrected array w

/-- Does the patrol scrub visit the L2 copy of a line in this tick? It visits a place of the slices' cache ways every 2,048 ticks, and so
each of the 2^22 once per 2^33 ticks (R389), in the order of their numbers (log 31). -/
def State.scrubsL2 (s : State) (line : Nat) : Bool :=
  let v := s.tick / 2048 % 2 ^ 22
  s.tick % 2048 == 0 && homeSlice (line * 128) == v / 65536 && line % 4096 == v % 4096 &&
    (s.rod (v / 65536)).slice.lines.any fun l => l.line == line && l.way == v / 4096 % 16

/-- Does it visit a granule of the DRAM copy of a line? It visits a granule every 8,192 ticks, and so each of the 2^33 once per 2^46
ticks. -/
def State.scrubsDram (s : State) (line : Nat) : Bool := s.tick % 8192 == 0 && s.tick / 8192 % 2 ^ 33 / 2 == line

/-- The line whose error a visit of the scrub finds in this tick, while SCRUB is set; a visit that finds none does nothing. -/
def State.scrubDue (s : State) : Option Nat :=
  if rbit s.regs.elcfg 12 then
    (s.errors.planted.find? fun e => if e.2.1 then s.scrubsDram e.1 else s.scrubsL2 e.1).map (·.1)
  else none

/-- PATROL_SCRUB (R386, R389). A number below 2^32 is a line: while SCRUB is set, the copies of it that the scrub visits in this tick are
read. Any other number `w + 2^32 lost + 2^33 array` stands for an error of chance, correctable where `lost` is 0 (log 31). Arrays 1 and 2
are the L2 and the DRAM copy of line `w`, read later; 3, the arrays of core `w`; 4, the same, first read by the core's next save; 5, an L1:
core `w % 256`, line `w / 256 % 4` of group `w / 1024`; 6, a staging way: slice `w % 64`, way `w / 64`; 7, entry `w / 2` of the priority
queue of die `w % 2`; 8, the gate memory of die `w % 2`; 9, lacer stage `w`, or pipeline entry `w - 256`; 10, predictor entry `w / 256` of
core `w % 256`; 11, launch queue state, for which Table 21-2 has no fate: an error that cannot be corrected is recorded and no more. -/
def execPatrolScrub (line : Nat) (s : State) : Out :=
  if line ≥ 2 ^ 32 then .next (s.softError (line / 2 ^ 33) (line / 2 ^ 32 % 2 = 1) (line % 2 ^ 32))
  else if rbit s.regs.elcfg 12 then
    let ia := s.lineIa line
    let t := if s.scrubsL2 line then (s.detect line false ia).2 else s
    .next (if s.scrubsDram line then (t.detect line true ia).2 else t)
  else .next s

end Sys2Proof.Machine
end

