-- ==== Sys2Proof/Machine/Vector.lean ====
section
/-!
DEFINITION. The vector rows: arithmetic (R171, R172), row-scalar forms (R173), conversions and quantising (R174 to R179),
reductions, permutes and single elements (R180 to R183), and the tile configuration (R166 to R169).
-/
namespace Sys2Proof.Machine

/-! ### Element functions (Table 9-1) -/

/-- The floating or integer case of an element function. -/
def byTy (ty : ElemTy) (f : FFmt → Nat × Flags) (i : Nat × Flags) : Nat × Flags :=
  match fmtOf ty with
  | some m => f m
  | none => i

/-- A + B. -/
def elAdd (ty : ElemTy) (a b : Nat) : Nat × Flags :=
  byTy ty (fun m => fadd m (m.decode a) (m.decode b)) (satInt ty (intVal ty a + intVal ty b))
/-- A − B. -/
def elSub (ty : ElemTy) (a b : Nat) : Nat × Flags :=
  byTy ty (fun m => fadd m (m.decode a) (m.decode b).flip) (satInt ty (intVal ty a - intVal ty b))
/-- A × B. -/
def elMul (ty : ElemTy) (a b : Nat) : Nat × Flags :=
  byTy ty (fun m => fmul m (m.decode a) (m.decode b)) (satInt ty (intVal ty a * intVal ty b))
/-- D + A × B, one rounding. -/
def elFma (ty : ElemTy) (a b d : Nat) : Nat × Flags :=
  byTy ty (fun m => ffma m (m.decode d) (m.decode a) (m.decode b)) (satInt ty (intVal ty d + intVal ty a * intVal ty b))
/-- The lesser, −0 below +0; a NaN operand gives canonical NaN (R172). -/
def elMin (ty : ElemTy) (a b : Nat) : Nat × Flags :=
  byTy ty (fun m =>
      let x := m.decode a
      let y := m.decode b
      if x.isNan || y.isNan then (m.nan, 0) else (if x.rankLt y then a else b, 0))
    (if intVal ty a < intVal ty b then a else b, 0)
/-- The greater, −0 below +0; a NaN operand gives canonical NaN (R172). -/
def elMax (ty : ElemTy) (a b : Nat) : Nat × Flags :=
  byTy ty (fun m =>
      let x := m.decode a
      let y := m.decode b
      if x.isNan || y.isNan then (m.nan, 0) else (if x.rankLt y then b else a, 0))
    (if intVal ty a < intVal ty b then b else a, 0)
/-- A shifted left by u(B) mod w. -/
def elShl (ty : ElemTy) (a b : Nat) : Nat × Flags := (a * 2 ^ (b % widthOf ty) % 2 ^ widthOf ty, 0)
/-- A shifted right by u(B) mod w, sign fill for a signed type. -/
def elShr (ty : ElemTy) (a b : Nat) : Nat × Flags :=
  (wrapBits (widthOf ty) (intVal ty a / 2 ^ (b % widthOf ty)), 0)
/-- Is an element nonzero, with −0 and +0 zero and NaN nonzero? -/
def elNonzero (ty : ElemTy) (d : Nat) : Bool :=
  match fmtOf ty with
  | some m => !(m.decode d).isZero
  | none => d != 0
/-- One as a value of the type. -/
def elOne (ty : ElemTy) (b : Bool) : Nat :=
  if b then (match fmtOf ty with
    | some m => (m.encode .rne (.fin false (2 ^ 149))).1
    | none => 1)
  else 0
/-- A = B; NaN compares false. -/
def elEq (ty : ElemTy) (a b : Nat) : Nat × Flags := (elOne ty ((elemVal ty a).eqv (elemVal ty b)), 0)
/-- A < B. -/
def elLt (ty : ElemTy) (a b : Nat) : Nat × Flags := (elOne ty ((elemVal ty a).lt (elemVal ty b)), 0)
/-- A ≤ B. -/
def elLe (ty : ElemTy) (a b : Nat) : Nat × Flags :=
  (elOne ty ((elemVal ty a).lt (elemVal ty b) || (elemVal ty a).eqv (elemVal ty b)), 0)
/-- |A − B|. -/
def elAbsd (ty : ElemTy) (a b : Nat) : Nat × Flags :=
  byTy ty (fun m =>
      let r := fadd m (m.decode a) (m.decode b).flip
      (r.1 % m.signBit, r.2))
    (satInt ty ((intVal ty a - intVal ty b).natAbs : Int))

/-! ### Row arithmetic -/

/-- A register-register form that takes va and vb of vd's type, which must satisfy `ok` (R171). -/
def rowForm (bound : Nat) (ok : ElemTy → Bool) (f : ElemTy → Nat → Nat → Nat → Nat × Flags) (vd va vb : BitVec 6)
    (s : State) : Out :=
  let d := s.rv vd
  let a := s.rv va
  let b := s.rv vb
  let ty := d.tile.ty
  if d.tile.conf && ok ty && a.tile.isTy ty && b.tile.isTy ty then
    let r := mapRow ty fun i => f ty (rowElem ty a.row i) (rowElem ty b.row i) (rowElem ty d.row i)
    .next (writeV bound vd d fullMask r.1 r.2 s)
  else .next (mismatch bound vd d fullMask s)

/-- A bitwise form on raw bytes, whatever the types (R171). -/
def bitForm (f : Row → Row → Row) (vd va vb : BitVec 6) (s : State) : Out :=
  .next (writeV 4 vd (s.rv vd) fullMask (f (s.rv va).row (s.rv vb).row) 0 s)

/-- VADD. -/
def execVadd (vd va vb : BitVec 6) (s : State) : Out := rowForm 4 isArithTy (fun t a b _ => elAdd t a b) vd va vb s
/-- VSUB. -/
def execVsub (vd va vb : BitVec 6) (s : State) : Out := rowForm 4 isArithTy (fun t a b _ => elSub t a b) vd va vb s
/-- VMUL. -/
def execVmul (vd va vb : BitVec 6) (s : State) : Out := rowForm 4 isArithTy (fun t a b _ => elMul t a b) vd va vb s
/-- VFMA. -/
def execVfma (vd va vb : BitVec 6) (s : State) : Out := rowForm 6 isArithTy elFma vd va vb s
/-- VMIN. -/
def execVmin (vd va vb : BitVec 6) (s : State) : Out := rowForm 4 isArithTy (fun t a b _ => elMin t a b) vd va vb s
/-- VMAX. -/
def execVmax (vd va vb : BitVec 6) (s : State) : Out := rowForm 4 isArithTy (fun t a b _ => elMax t a b) vd va vb s
/-- VAND. -/
def execVand (vd va vb : BitVec 6) (s : State) : Out := bitForm (· &&& ·) vd va vb s
/-- VOR. -/
def execVor (vd va vb : BitVec 6) (s : State) : Out := bitForm (· ||| ·) vd va vb s
/-- VXOR. -/
def execVxor (vd va vb : BitVec 6) (s : State) : Out := bitForm (· ^^^ ·) vd va vb s
/-- VSHL: a floating type gives the mismatch fate. -/
def execVshl (vd va vb : BitVec 6) (s : State) : Out := rowForm 4 isIntTy (fun t a b _ => elShl t a b) vd va vb s
/-- VSHR. -/
def execVshr (vd va vb : BitVec 6) (s : State) : Out := rowForm 4 isIntTy (fun t a b _ => elShr t a b) vd va vb s
/-- VSEL reads vd as its mask. -/
def execVsel (vd va vb : BitVec 6) (s : State) : Out :=
  rowForm 4 isArithTy (fun t a b d => (if elNonzero t d then a else b, 0)) vd va vb s
/-- VCMPEQ. -/
def execVcmpeq (vd va vb : BitVec 6) (s : State) : Out := rowForm 4 isArithTy (fun t a b _ => elEq t a b) vd va vb s
/-- VCMPLT. -/
def execVcmplt (vd va vb : BitVec 6) (s : State) : Out := rowForm 4 isArithTy (fun t a b _ => elLt t a b) vd va vb s
/-- VCMPLE. -/
def execVcmple (vd va vb : BitVec 6) (s : State) : Out := rowForm 4 isArithTy (fun t a b _ => elLe t a b) vd va vb s
/-- VABSD. -/
def execVabsd (vd va vb : BitVec 6) (s : State) : Out := rowForm 4 isArithTy (fun t a b _ => elAbsd t a b) vd va vb s

/-- A row-scalar form (R173): B is bits[w−1:0] of x[xb]. -/
def rowScalar (bound : Nat) (f : ElemTy → Nat → Nat → Nat → Nat × Flags) (vd va : BitVec 6) (xb : BitVec 5)
    (s : State) : Out :=
  let d := s.rv vd
  let a := s.rv va
  let ty := d.tile.ty
  let b := (s.rx xb).toNat % 2 ^ widthOf ty
  if d.tile.conf && isArithTy ty && a.tile.isTy ty then
    let r := mapRow ty fun i => f ty (rowElem ty a.row i) b (rowElem ty d.row i)
    .next (writeV bound vd d fullMask r.1 r.2 s)
  else .next (mismatch bound vd d fullMask s)

/-- VADDS. -/
def execVadds (vd va : BitVec 6) (xb : BitVec 5) (s : State) : Out := rowScalar 4 (fun t a b _ => elAdd t a b) vd va xb s
/-- VMULS. -/
def execVmuls (vd va : BitVec 6) (xb : BitVec 5) (s : State) : Out := rowScalar 4 (fun t a b _ => elMul t a b) vd va xb s
/-- VFMAS. -/
def execVfmas (vd va : BitVec 6) (xb : BitVec 5) (s : State) : Out := rowScalar 6 elFma vd va xb s
/-- VMINS. -/
def execVmins (vd va : BitVec 6) (xb : BitVec 5) (s : State) : Out := rowScalar 4 (fun t a b _ => elMin t a b) vd va xb s
/-- VMAXS. -/
def execVmaxs (vd va : BitVec 6) (xb : BitVec 5) (s : State) : Out := rowScalar 4 (fun t a b _ => elMax t a b) vd va xb s
/-- VSPLAT: every configured type. -/
def execVsplat (vd : BitVec 6) (xb : BitVec 5) (s : State) : Out :=
  let d := s.rv vd
  if d.tile.conf then
    .next (writeV 4 vd d fullMask (mapRow d.tile.ty fun _ => ((s.rx xb).toNat, 0)).1 0 s)
  else .next (mismatch 4 vd d fullMask s)

/-! ### Conversions (R174 to R179) -/

/-- A segment (R174): first source element, first destination element, and how many. -/
structure Seg where
  src : Nat
  dst : Nat
  n : Nat
  deriving DecidableEq, Repr, Inhabited

/-- The segment of a conversion between rows of `es` and `ed` elements with row indices `ia` and `id` (R174). -/
def segOf (es ed ia id : Nat) : Seg :=
  if ed > es then ⟨0, (ia % (ed / es)) * es, es⟩
  else if es > ed then ⟨(id % (es / ed)) * ed, 0, ed⟩
  else ⟨0, 0, es⟩

/-- Segment and destination mask of a conversion: an unconfigured source acts as if the sizes were equal, over the whole
row (R174). -/
def segMask (a d : VOp) : Seg × Row :=
  if a.tile.conf && d.tile.conf then
    let g := segOf (countOf a.tile.ty) (countOf d.tile.ty) a.idx d.idx
    (g, elemMask (widthOf d.tile.ty) g.dst g.n)
  else (⟨0, 0, 0⟩, fullMask)

/-- Write the elements of a segment. -/
def writeSeg (vd : BitVec 6) (d : VOp) (g : Seg) (mask : Row) (rs : List (Nat × Flags)) (s : State) : State :=
  let w := widthOf d.tile.ty
  let v := packElems w (rs.map (·.1))
  writeV 4 vd d mask (v <<< (w * g.dst)) (flagsAll (rs.map (·.2))) s

/-- Pair `j` of the scale latch (R31). -/
def slPair (sl : BitVec 256) (j : Nat) : Nat × Nat :=
  ((sl.extractLsb' (16 * j) 8).toNat, (sl.extractLsb' (16 * j + 8) 8).toNat)

/-- Quantise a segment of a floating row against the pairs in sl (R178). -/
def quantSeg (f : DbTy) (m : FFmt) (sl : BitVec 256) (a : VOp) (g : Seg) : List (Nat × Flags) :=
  (List.range (g.n / 32)).flatMap fun k =>
    let p := slPair sl ((g.dst + 32 * k) / 32)
    let xs := (List.range 32).map fun i => m.decode (rowElem a.tile.ty a.row (g.src + 32 * k + i))
    let q := dbQuantWith f p.1 p.2 xs
    (q.1.zip (List.range 32)).map fun ci => (ci.1, if ci.2 = 0 then q.2 else 0)

/-- Decode a segment of a DB row with the pairs in sl to a floating type (R179). -/
def dequantSeg (f : DbTy) (m : FFmt) (rm : RMode) (sl : BitVec 256) (a : VOp) (g : Seg) : List (Nat × Flags) :=
  (List.range g.n).map fun i =>
    let e := g.src + i
    let p := slPair sl (e / 32)
    m.encode rm (dbDecode f (rowElem a.tile.ty a.row e) p.1 p.2)

/-- VCVT (R175). -/
def execVcvt (vd va : BitVec 6) (ty : ElemTy) (rnd : RMode) (s : State) : Out :=
  let d := s.rv vd
  let a := s.rv va
  let (g, mask) := segMask a d
  let sl := s.me.rdSl
  if d.tile.isTy ty && a.tile.conf && cvtPair a.tile.ty ty then
    let rs := match dbOf a.tile.ty, dbOf ty, fmtOf a.tile.ty, fmtOf ty with
      | some f, none, _, some m => dequantSeg f m (if ty = .fp16 then rnd else .rne) sl a g
      | none, some f, some m, _ => quantSeg f m sl a g
      | _, _, _, _ => (List.range g.n).map fun i => cvtElem a.tile.ty ty rnd (rowElem a.tile.ty a.row (g.src + i))
    .next (writeSeg vd d g mask rs s)
  else .next (mismatch 4 vd d mask s)

/-- VMAXEXP (R177): the pairs land by R126. -/
def execVmaxexp (va : BitVec 6) (ty : DbTy) (s : State) : Out :=
  let a := s.rv va
  match a.tile.conf, fmtOf a.tile.ty with
  | true, some m =>
    let es := countOf a.tile.ty
    let g := segOf es (countOf (dbElemTy ty)) a.idx 0
    let step := fun (acc : BitVec 256 × BitVec 256) (k : Nat) =>
      let b := (g.dst + 32 * k) / 32
      let xs := (List.range 32).map fun i => m.decode (rowElem a.tile.ty a.row (32 * k + i))
      let p := dbExps ty xs
      (acc.1 ||| (BitVec.ofNat 256 0xFFFF <<< (16 * b)), acc.2 ||| (BitVec.ofNat 256 (p.1 + 256 * p.2) <<< (16 * b)))
    let r := (List.range (es / 32)).foldl step (0, 0)
    .next (s.onMe fun c => c.post 3 (.sl r.1 r.2))
  | _, _ => .next (s.onMe fun c => c.post 3 (.flags flagNV true))

/-- VQNT (R178). -/
def execVqnt (vd va : BitVec 6) (ty : DbTy) (s : State) : Out :=
  let d := s.rv vd
  let a := s.rv va
  let (g, mask) := segMask a d
  match d.tile.isTy (dbElemTy ty) && a.tile.conf, fmtOf a.tile.ty with
  | true, some m => .next (writeSeg vd d g mask (quantSeg ty m s.me.rdSl a g) s)
  | _, _ => .next (mismatch 4 vd d mask s)

/-- VDQNT (R179). -/
def execVdqnt (vd va : BitVec 6) (ty : DbTy) (s : State) : Out :=
  let d := s.rv vd
  let a := s.rv va
  let (g, mask) := segMask a d
  match a.tile.isTy (dbElemTy ty) && d.tile.conf, fmtOf d.tile.ty with
  | true, some m => .next (writeSeg vd d g mask (dequantSeg ty m .rne s.me.rdSl a g) s)
  | _, _ => .next (mismatch 4 vd d mask s)

/-- One element of VRND (R176). -/
def elRnd (m : FFmt) (rnd : RMode) (b : Nat) : Nat × Flags :=
  match m.decode b with
  | .nan => (m.nan, 0)
  | .inf _ => (b, 0)
  | .fin neg n =>
    let (q, ch) := roundToInt rnd neg n
    ((m.encode .rne (.fin neg (q * 2 ^ 149))).1, flagIf ch flagNX)

/-- VRND (R176). A mismatch zeroes the segment (log 22). -/
def execVrnd (vd va : BitVec 6) (rnd : RMode) (s : State) : Out :=
  let d := s.rv vd
  let a := s.rv va
  let ty := a.tile.ty
  if a.tile.conf && d.tile.isTy ty && isArithTy ty then
    match fmtOf ty with
    | some m =>
      let r := mapRow ty fun i => elRnd m rnd (rowElem ty a.row i)
      .next (writeV 4 vd d fullMask r.1 r.2 s)
    | none => .next (writeV 4 vd d fullMask a.row 0 s)
  else .next (mismatch 4 vd d (segMask a d).2 s)

/-! ### Reductions and permutes (R180 to R183) -/

/-- One level of VRSUM's tree: adjacent pairs added, RNE in FP32. -/
def sumLevel : List Nat → List Nat × Flags
  | a :: b :: xs =>
    let r := fadd .fp32 (FFmt.fp32.decode a) (FFmt.fp32.decode b)
    let t := sumLevel xs
    (r.1 :: t.1, r.2 ||| t.2)
  | xs => (xs, 0)

/-- VRSUM's tree over at most `2^fuel` elements. -/
def sumTree : Nat → List Nat → Nat × Flags
  | 0, xs => (xs.headD 0, 0)
  | k + 1, xs =>
    let l := sumLevel xs
    let r := sumTree k l.1
    (r.1, l.2 ||| r.2)

/-- Every element of the destination row set to one pattern. -/
def splat (ty : ElemTy) (v : Nat) : Row := (mapRow ty fun _ => (v, 0)).1

/-- VRSUM (R180). -/
def execVrsum (vd va : BitVec 6) (s : State) : Out :=
  let d := s.rv vd
  let a := s.rv va
  let ta := a.tile.ty
  let td := d.tile.ty
  if a.tile.conf && d.tile.conf && isArithTy ta
      && (td == ta || (isIntTy ta && td == .int32) || (isFloatTy ta && td == .fp32)) then
    match fmtOf ta, fmtOf td with
    | some ma, some md =>
      let xs := (rowElems ta a.row).map fun b => (FFmt.fp32.encode .rne (ma.decode b)).1
      let r := sumTree (Nat.log2 (countOf ta)) xs
      let e := md.encode .rne (FFmt.fp32.decode r.1)
      .next (writeV 4 vd d fullMask (splat td e.1) (r.2 ||| e.2) s)
    | _, _ =>
      let r := satInt td ((rowElems ta a.row).foldl (fun acc b => acc + intVal ta b) 0)
      .next (writeV 4 vd d fullMask (splat td r.1) r.2 s)
  else .next (mismatch 4 vd d fullMask s)

/-- The element that `better` prefers, the earlier one on a tie. -/
def pick (better : Nat → Nat → Bool) : List Nat → Nat
  | [] => 0
  | x :: xs => xs.foldl (fun b y => if better y b then y else b) x

/-- VRMAX, VRMIN and VRAMAX (R181): `prep` forms the candidate of an element, `lt` ranks candidates. -/
def rowExtreme (prep : ElemTy → Nat → Nat × Flags) (greatest : Bool) (vd va : BitVec 6) (s : State) : Out :=
  let d := s.rv vd
  let a := s.rv va
  let ty := a.tile.ty
  if a.tile.conf && d.tile.isTy ty && isArithTy ty then
    let es := (rowElems ty a.row).map (prep ty)
    let better := fun x y =>
      match fmtOf ty with
      | some m => if greatest then (m.decode y).rankLt (m.decode x) else (m.decode x).rankLt (m.decode y)
      | none => if greatest then decide (intVal ty y < intVal ty x) else decide (intVal ty x < intVal ty y)
    let nan := match fmtOf ty with
      | some m => if es.any (fun e => (m.decode e.1).isNan) then some m.nan else none
      | none => none
    let v := nan.getD (pick better (es.map (·.1)))
    .next (writeV 4 vd d fullMask (splat ty v) (flagsAll (es.map (·.2))) s)
  else .next (mismatch 4 vd d fullMask s)

/-- VRMAX. -/
def execVrmax (vd va : BitVec 6) (s : State) : Out := rowExtreme (fun _ b => (b, 0)) true vd va s
/-- VRMIN. -/
def execVrmin (vd va : BitVec 6) (s : State) : Out := rowExtreme (fun _ b => (b, 0)) false vd va s
/-- VRAMAX: the greatest magnitude. -/
def execVramax (vd va : BitVec 6) (s : State) : Out :=
  rowExtreme (fun t b => match fmtOf t with
    | some m => (b % m.signBit, 0)
    | none => satInt t ((intVal t b).natAbs : Int)) true vd va s

/-- VPERM (R182). -/
def execVperm (vd va vb : BitVec 6) (s : State) : Out :=
  let d := s.rv vd
  let a := s.rv va
  let b := s.rv vb
  let ty := a.tile.ty
  let tb := b.tile.ty
  if a.tile.conf && d.tile.isTy ty && b.tile.conf && isIntTy tb && decide (countOf tb ≥ countOf ty) then
    let r := mapRow ty fun i => (rowElem ty a.row (rowElem tb b.row i % countOf ty), 0)
    .next (writeV 4 vd d fullMask r.1 0 s)
  else .next (mismatch 4 vd d fullMask s)

/-- Is a mask element nonzero for VCOMPR (R182)? -/
def maskNonzero (ty : ElemTy) (e : Nat) : Bool := if isDbTy ty then e != 0 else elNonzero ty e

/-- VCOMPR (R182). -/
def execVcompr (vd va vb : BitVec 6) (s : State) : Out :=
  let d := s.rv vd
  let a := s.rv va
  let b := s.rv vb
  let ty := a.tile.ty
  let tb := b.tile.ty
  if a.tile.conf && d.tile.isTy ty && b.tile.conf && decide (countOf tb ≥ countOf ty) then
    let es := (List.range (countOf ty)).filterMap fun i =>
      if maskNonzero tb (rowElem tb b.row i) then some (rowElem ty a.row i) else none
    .next (writeV 4 vd d fullMask (packElems (widthOf ty) es) 0 s)
  else .next (mismatch 4 vd d fullMask s)

/-- VEXT (R183). -/
def execVext (xd : BitVec 5) (va : BitVec 6) (xb : BitVec 5) (s : State) : Out :=
  let a := s.rv va
  let ty := a.tile.ty
  if a.tile.conf then
    let e := rowElem ty a.row ((s.rx xb).toNat % countOf ty)
    let v : Word := match ty with
      | .int8 | .int16 | .int32 => BitVec.ofInt 64 (intVal ty e)
      | _ => BitVec.ofNat 64 e
    .next (s.onMe fun c => c.putXLate 4 xd v)
  else .next (s.onMe fun c => (c.putXLate 4 xd 0).raise 4 flagNV)

/-- VINS (R183). -/
def execVins (vd : BitVec 6) (xs xb : BitVec 5) (s : State) : Out :=
  let d := s.rv vd
  let ty := d.tile.ty
  if d.tile.conf then
    let i := (s.rx xb).toNat % countOf ty
    let w := widthOf ty
    let v := BitVec.ofNat 2048 ((s.rx xs).toNat % 2 ^ w * 2 ^ (w * i))
    .next (writeV 4 vd d (elemMask w i 1) v 0 s)
  else .next (mismatch 4 vd d fullMask s)

/-- VIOTA (R183). -/
def execViota (vd : BitVec 6) (s : State) : Out :=
  let d := s.rv vd
  let ty := d.tile.ty
  if d.tile.conf && isArithTy ty then
    let r := mapRow ty fun i => match fmtOf ty with
      | some m => ((m.round .rne false i 1).1, 0)
      | none => (i % 2 ^ widthOf ty, 0)
    .next (writeV 4 vd d fullMask r.1 0 s)
  else .next (mismatch 4 vd d fullMask s)

/-! ### Tiles (R167 to R169) -/

/-- No tag. -/
def noTags : Vector Tag 64 := Vector.replicate 64 {}
/-- Every row zero. -/
def zeroRows : Vector Row 64 := Vector.replicate 64 0

/-- The tile that TCFG leaves (R167). -/
def tcfgTile (old : Tile) (ty : ElemTy) (n : Nat) (keep tent : Bool) : Tile × Bool :=
  let kept := keep && old.conf && old.nrows == n && widthOf old.ty == widthOf ty
  let tags := if tent && kept && old.tent then old.tags else noTags
  (⟨true, ty, n, tent, tags, if kept then old.rows else zeroRows⟩, kept)

/-- A whole tile in flight, bound 4 (R167, R168). -/
def putTile (t : BitVec 4) (v : Tile) (keep recfg : Bool) (s : State) : State :=
  s.onMe fun c => (c.markBusy 4 t).post 4 (.tile t v keep recfg)

/-- TCFG (R167). -/
def execTcfg (t : BitVec 4) (ty : ElemTy) (rows : BitVec 6) (keep tent : BitVec 1) (s : State) : Out :=
  let r := tcfgTile (s.me.rdTile s.act s.slot t 64) ty (rows.toNat + 1) (keep == 1) (tent == 1)
  .next (putTile t r.1 r.2 true s)

/-- TZERO (R168). -/
def execTzero (t : BitVec 4) (s : State) : Out :=
  .next (putTile t { s.me.rdTile s.act s.slot t 64 with tags := noTags, rows := zeroRows } false false s)

/-- TMOV (R168). Onto itself it changes nothing, but the tile is busy until its bound passes (R128). -/
def execTmov (td ts : BitVec 4) (s : State) : Out :=
  if td = ts then .next (s.onMe fun c => c.holdTile 4 td)
  else .next (putTile td (s.me.rdTile s.act s.slot ts 64) false false s)

/-- A tag as MMAG's index element and TTAG lay it out (R169). -/
def Tag.bits (g : Tag) : BitVec 29 := bit g.valid ++ g.gen ++ g.expert ++ g.token

/-- TTAG (R169). -/
def execTtag (t : BitVec 4) (cr : BitVec 2) (xd : BitVec 5) (s : State) : Out :=
  let r := (s.me.rdC cr).toNat
  let v := s.me.rdTile s.act s.slot t r
  let w : Word := if v.tent && decide (r < v.rowCount) then zext64 (v.tags.getD r {}).bits else 0
  .next (s.onMe fun c => c.putXLate 4 xd w)

end Sys2Proof.Machine
end

