-- ==== Sys2Proof/Machine/Dispatch.lean ====
section
/-!
DEFINITION. One arm for every constructor of `Instr`, each one direct call of that instruction's meaning.
-/
namespace Sys2Proof.Machine

def exec (i : Instr) (s : State) : Host.Outcome State Fault Refusal :=
  match i with
  | .packageReset => Sys2Proof.Machine.execPackageReset s
  | .hostLinkTraining link width speed => Sys2Proof.Machine.execHostLinkTraining link width speed s
  | .doorbell q v => Sys2Proof.Machine.execDoorbell q v s
  | .lqcfgWrite q v => Sys2Proof.Machine.execLqcfgWrite q v s
  | .bar0RegisterWrite off v => Sys2Proof.Machine.execBar0RegisterWrite off v s
  | .nopCommand q => Sys2Proof.Machine.execNopCommand q s
  | .ctxCreate q => Sys2Proof.Machine.execCtxCreate q s
  | .ctxDestroy q => Sys2Proof.Machine.execCtxDestroy q s
  | .imgLoad q => Sys2Proof.Machine.execImgLoad q s
  | .imgUnload q => Sys2Proof.Machine.execImgUnload q s
  | .launch q => Sys2Proof.Machine.execLaunch q s
  | .pipeBind q => Sys2Proof.Machine.execPipeBind q s
  | .attest q => Sys2Proof.Machine.execAttest q s
  | .priorityAging k => Sys2Proof.Machine.execPriorityAging k s
  | .kernelPlacement => Sys2Proof.Machine.execKernelPlacement s
  | .quantumExpiry k => Sys2Proof.Machine.execQuantumExpiry k s
  | .preemptionPoint core => Sys2Proof.Machine.execPreemptionPoint core s
  | .saveComplete core => Sys2Proof.Machine.execSaveComplete core s
  | .placementEnd rod => Sys2Proof.Machine.execPlacementEnd rod s
  | .restoreComplete core => Sys2Proof.Machine.execRestoreComplete core s
  | .kernelRetire k => Sys2Proof.Machine.execKernelRetire k s
  | .finalAccounts asid => Sys2Proof.Machine.execFinalAccounts asid s
  | .abacusFlush core => Sys2Proof.Machine.execAbacusFlush core s
  | .acsEnable core => Sys2Proof.Machine.execAcsEnable core s
  | .acsDisable core => Sys2Proof.Machine.execAcsDisable core s
  | .chargeRunClose core => Sys2Proof.Machine.execChargeRunClose core s
  | .windowEnd rod => Sys2Proof.Machine.execWindowEnd rod s
  | .fillerBundle core => Sys2Proof.Machine.execFillerBundle core s
  | .stallBundle core => Sys2Proof.Machine.execStallBundle core s
  | .opChangeBegin rod => Sys2Proof.Machine.execOpChangeBegin rod s
  | .rampEnd rod => Sys2Proof.Machine.execRampEnd rod s
  | .relockEnd rod => Sys2Proof.Machine.execRelockEnd rod s
  | .permitSpent panel => Sys2Proof.Machine.execPermitSpent panel s
  | .permitEarned panel => Sys2Proof.Machine.execPermitEarned panel s
  | .boostFallSecondStep panel => Sys2Proof.Machine.execBoostFallSecondStep panel s
  | .poolClaim panel => Sys2Proof.Machine.execPoolClaim panel s
  | .poolGrant die => Sys2Proof.Machine.execPoolGrant die s
  | .poolWithdraw panel => Sys2Proof.Machine.execPoolWithdraw panel s
  | .powerSample watts => Sys2Proof.Machine.execPowerSample watts s
  | .thermalReading panel steps => Sys2Proof.Machine.execThermalReading panel steps s
  | .thermalDwellEnd panel => Sys2Proof.Machine.execThermalDwellEnd panel s
  | .clockGate rod => Sys2Proof.Machine.execClockGate rod s
  | .railGate rod => Sys2Proof.Machine.execRailGate rod s
  | .quiesceEnd rod => Sys2Proof.Machine.execQuiesceEnd rod s
  | .saveStateEnd rod => Sys2Proof.Machine.execSaveStateEnd rod s
  | .holdEnd rod => Sys2Proof.Machine.execHoldEnd rod s
  | .railDownEnd rod => Sys2Proof.Machine.execRailDownEnd rod s
  | .wake core => Sys2Proof.Machine.execWake core s
  | .inrushAdmit die => Sys2Proof.Machine.execInrushAdmit die s
  | .inrushRampEnd rod => Sys2Proof.Machine.execInrushRampEnd rod s
  | .wakeRestoreEnd rod => Sys2Proof.Machine.execWakeRestoreEnd rod s
  | .fetchFill core => Sys2Proof.Machine.execFetchFill core s
  | .loadReturn core op => Sys2Proof.Machine.execLoadReturn core op s
  | .storePerform core op => Sys2Proof.Machine.execStorePerform core op s
  | .copyAccept core op => Sys2Proof.Machine.execCopyAccept core op s
  | .copyComplete core op => Sys2Proof.Machine.execCopyComplete core op s
  | .promiseMissed core op => Sys2Proof.Machine.execPromiseMissed core op s
  | .stagingResize rod ways => Sys2Proof.Machine.execStagingResize rod ways s
  | .stagingResizeComplete rod => Sys2Proof.Machine.execStagingResizeComplete rod s
  | .sync page => Sys2Proof.Machine.execSync page s
  | .clear page => Sys2Proof.Machine.execClear page s
  | .syncComplete => Sys2Proof.Machine.execSyncComplete s
  | .probeAccept core => Sys2Proof.Machine.execProbeAccept core s
  | .probeFault core => Sys2Proof.Machine.execProbeFault core s
  | .probeComplete core => Sys2Proof.Machine.execProbeComplete core s
  | .matrixOpStart core => Sys2Proof.Machine.execMatrixOpStart core s
  | .matrixOpComplete core => Sys2Proof.Machine.execMatrixOpComplete core s
  | .specComplete core => Sys2Proof.Machine.execSpecComplete core s
  | .barrierArrival core op => Sys2Proof.Machine.execBarrierArrival core op s
  | .ticketGrant core => Sys2Proof.Machine.execTicketGrant core s
  | .sleepEnd core => Sys2Proof.Machine.execSleepEnd core s
  | .waitwEnd core => Sys2Proof.Machine.execWaitwEnd core s
  | .klaunchAccept core => Sys2Proof.Machine.execKlaunchAccept core s
  | .stageElementLanded core op => Sys2Proof.Machine.execStageElementLanded core op s
  | .elementPublished entry => Sys2Proof.Machine.execElementPublished entry s
  | .channelBind peer chan v => Sys2Proof.Machine.execChannelBind peer chan v s
  | .channelUnbind peer chan => Sys2Proof.Machine.execChannelUnbind peer chan s
  | .creditGrant peer chan => Sys2Proof.Machine.execCreditGrant peer chan s
  | .sendAccept core op => Sys2Proof.Machine.execSendAccept core op s
  | .messageArrival peer chan m => Sys2Proof.Machine.execMessageArrival peer chan m s
  | .markerArrival peer chan gen => Sys2Proof.Machine.execMarkerArrival peer chan gen s
  | .recvPosted core op => Sys2Proof.Machine.execRecvPosted core op s
  | .recvAccept core op => Sys2Proof.Machine.execRecvAccept core op s
  | .recvComplete core op => Sys2Proof.Machine.execRecvComplete core op s
  | .contributionArrival slot c => Sys2Proof.Machine.execContributionArrival slot c s
  | .reductionTimeout slot => Sys2Proof.Machine.execReductionTimeout slot s
  | .sendrAnswer core op => Sys2Proof.Machine.execSendrAnswer core op s
  | .remoteErrorReport asid line => Sys2Proof.Machine.execRemoteErrorReport asid line s
  | .gatecfgWrite die v => Sys2Proof.Machine.execGatecfgWrite die v s
  | .gateLoad die v => Sys2Proof.Machine.execGateLoad die v s
  | .gateLoadComplete die => Sys2Proof.Machine.execGateLoadComplete die s
  | .trapEntry core => Sys2Proof.Machine.execTrapEntry core s
  | .watchdog core => Sys2Proof.Machine.execWatchdog core s
  | .tendWrite core v => Sys2Proof.Machine.execTendWrite core v s
  | .pet core => Sys2Proof.Machine.execPet core s
  | .debugHalt core => Sys2Proof.Machine.execDebugHalt core s
  | .debugStep core => Sys2Proof.Machine.execDebugStep core s
  | .debugResume core => Sys2Proof.Machine.execDebugResume core s
  | .debugSnap core => Sys2Proof.Machine.execDebugSnap core s
  | .debugLoad core => Sys2Proof.Machine.execDebugLoad core s
  | .patrolScrub line => Sys2Proof.Machine.execPatrolScrub line s
  | .pageRetirement frame => Sys2Proof.Machine.execPageRetirement frame s
  | .wayQuarantine slice way => Sys2Proof.Machine.execWayQuarantine slice way s
  | .errinjWrite v => Sys2Proof.Machine.execErrinjWrite v s
  | .add pg xd xa xb => Sys2Proof.Machine.execAdd pg xd xa xb s
  | .sub pg xd xa xb => Sys2Proof.Machine.execSub pg xd xa xb s
  | .and pg xd xa xb => Sys2Proof.Machine.execAnd pg xd xa xb s
  | .or pg xd xa xb => Sys2Proof.Machine.execOr pg xd xa xb s
  | .xor pg xd xa xb => Sys2Proof.Machine.execXor pg xd xa xb s
  | .andn pg xd xa xb => Sys2Proof.Machine.execAndn pg xd xa xb s
  | .sll pg xd xa xb => Sys2Proof.Machine.execSll pg xd xa xb s
  | .srl pg xd xa xb => Sys2Proof.Machine.execSrl pg xd xa xb s
  | .sra pg xd xa xb => Sys2Proof.Machine.execSra pg xd xa xb s
  | .ror pg xd xa xb => Sys2Proof.Machine.execRor pg xd xa xb s
  | .mul pg xd xa xb => Sys2Proof.Machine.execMul pg xd xa xb s
  | .mulh pg xd xa xb => Sys2Proof.Machine.execMulh pg xd xa xb s
  | .mulhu pg xd xa xb => Sys2Proof.Machine.execMulhu pg xd xa xb s
  | .div pg xd xa xb => Sys2Proof.Machine.execDiv pg xd xa xb s
  | .divu pg xd xa xb => Sys2Proof.Machine.execDivu pg xd xa xb s
  | .rem pg xd xa xb => Sys2Proof.Machine.execRem pg xd xa xb s
  | .remu pg xd xa xb => Sys2Proof.Machine.execRemu pg xd xa xb s
  | .min pg xd xa xb => Sys2Proof.Machine.execMin pg xd xa xb s
  | .max pg xd xa xb => Sys2Proof.Machine.execMax pg xd xa xb s
  | .minu pg xd xa xb => Sys2Proof.Machine.execMinu pg xd xa xb s
  | .maxu pg xd xa xb => Sys2Proof.Machine.execMaxu pg xd xa xb s
  | .slt pg xd xa xb => Sys2Proof.Machine.execSlt pg xd xa xb s
  | .sltu pg xd xa xb => Sys2Proof.Machine.execSltu pg xd xa xb s
  | .seq pg xd xa xb => Sys2Proof.Machine.execSeq pg xd xa xb s
  | .clz pg xd xa => Sys2Proof.Machine.execClz pg xd xa s
  | .ctz pg xd xa => Sys2Proof.Machine.execCtz pg xd xa s
  | .popc pg xd xa => Sys2Proof.Machine.execPopc pg xd xa s
  | .addi xd xa imm => Sys2Proof.Machine.execAddi xd xa imm s
  | .andi xd xa imm => Sys2Proof.Machine.execAndi xd xa imm s
  | .ori xd xa imm => Sys2Proof.Machine.execOri xd xa imm s
  | .xori xd xa imm => Sys2Proof.Machine.execXori xd xa imm s
  | .slli xd xa imm => Sys2Proof.Machine.execSlli xd xa imm s
  | .srli xd xa imm => Sys2Proof.Machine.execSrli xd xa imm s
  | .srai xd xa imm => Sys2Proof.Machine.execSrai xd xa imm s
  | .slti xd xa imm => Sys2Proof.Machine.execSlti xd xa imm s
  | .sltui xd xa imm => Sys2Proof.Machine.execSltui xd xa imm s
  | .muli xd xa imm => Sys2Proof.Machine.execMuli xd xa imm s
  | .lui xd imm => Sys2Proof.Machine.execLui xd imm s
  | .auipc xd imm => Sys2Proof.Machine.execAuipc xd imm s
  | .beq xa xb off => Sys2Proof.Machine.execBeq xa xb off s
  | .bne xa xb off => Sys2Proof.Machine.execBne xa xb off s
  | .blt xa xb off => Sys2Proof.Machine.execBlt xa xb off s
  | .bge xa xb off => Sys2Proof.Machine.execBge xa xb off s
  | .bltu xa xb off => Sys2Proof.Machine.execBltu xa xb off s
  | .bgeu xa xb off => Sys2Proof.Machine.execBgeu xa xb off s
  | .bp pn off => Sys2Proof.Machine.execBp pn off s
  | .bnp pn off => Sys2Proof.Machine.execBnp pn off s
  | .j off => Sys2Proof.Machine.execJ off s
  | .jal x off => Sys2Proof.Machine.execJal x off s
  | .jr x off => Sys2Proof.Machine.execJr x off s
  | .jalr x off => Sys2Proof.Machine.execJalr x off s
  | .loop lvl xc len => Sys2Proof.Machine.execLoop lvl xc len s
  | .ldelta lvl target imm => Sys2Proof.Machine.execLdelta lvl target imm s
  | .lbrk lvl => Sys2Proof.Machine.execLbrk lvl s
  | .lclr lvl => Sys2Proof.Machine.execLclr lvl s
  | .movxa ar xs => Sys2Proof.Machine.execMovxa ar xs s
  | .movax xd ar => Sys2Proof.Machine.execMovax xd ar s
  | .movxc cr xs => Sys2Proof.Machine.execMovxc cr xs s
  | .movcx xd cr => Sys2Proof.Machine.execMovcx xd cr s
  | .pset pd xa => Sys2Proof.Machine.execPset pd xa s
  | .pand pd pa pb => Sys2Proof.Machine.execPand pd pa pb s
  | .por pd pa pb => Sys2Proof.Machine.execPor pd pa pb s
  | .pxor pd pa pb => Sys2Proof.Machine.execPxor pd pa pb s
  | .pnot pd pa => Sys2Proof.Machine.execPnot pd pa s
  | .rdctl xd n => Sys2Proof.Machine.execRdctl xd n s
  | .wrctl xs n => Sys2Proof.Machine.execWrctl xs n s
  | .rdcyc xd => Sys2Proof.Machine.execRdcyc xd s
  | .sel xd xa xb pn => Sys2Proof.Machine.execSel xd xa xb pn s
  | .nop => Sys2Proof.Machine.execNop s
  | .halt => Sys2Proof.Machine.execHalt s
  | .trap imm => Sys2Proof.Machine.execTrap imm s
  | .rfe => Sys2Proof.Machine.execRfe s
  | .sleepu xs => Sys2Proof.Machine.execSleepu xs s
  | .fence scope => Sys2Proof.Machine.execFence scope s
  | .opsel point => Sys2Proof.Machine.execOpsel point s
  | .klaunch xd ar => Sys2Proof.Machine.execKlaunch xd ar s
  | .yield => Sys2Proof.Machine.execYield s
  | .brk imm => Sys2Proof.Machine.execBrk imm s
  | .waitw xs => Sys2Proof.Machine.execWaitw xs s
  | .accrd xd cause => Sys2Proof.Machine.execAccrd xd cause s
  | .vadd vd va vb => Sys2Proof.Machine.execVadd vd va vb s
  | .vsub vd va vb => Sys2Proof.Machine.execVsub vd va vb s
  | .vmul vd va vb => Sys2Proof.Machine.execVmul vd va vb s
  | .vfma vd va vb => Sys2Proof.Machine.execVfma vd va vb s
  | .vmin vd va vb => Sys2Proof.Machine.execVmin vd va vb s
  | .vmax vd va vb => Sys2Proof.Machine.execVmax vd va vb s
  | .vand vd va vb => Sys2Proof.Machine.execVand vd va vb s
  | .vor vd va vb => Sys2Proof.Machine.execVor vd va vb s
  | .vxor vd va vb => Sys2Proof.Machine.execVxor vd va vb s
  | .vshl vd va vb => Sys2Proof.Machine.execVshl vd va vb s
  | .vshr vd va vb => Sys2Proof.Machine.execVshr vd va vb s
  | .vsel vd va vb => Sys2Proof.Machine.execVsel vd va vb s
  | .vcmpeq vd va vb => Sys2Proof.Machine.execVcmpeq vd va vb s
  | .vcmplt vd va vb => Sys2Proof.Machine.execVcmplt vd va vb s
  | .vcmple vd va vb => Sys2Proof.Machine.execVcmple vd va vb s
  | .vabsd vd va vb => Sys2Proof.Machine.execVabsd vd va vb s
  | .vadds vd va xb => Sys2Proof.Machine.execVadds vd va xb s
  | .vmuls vd va xb => Sys2Proof.Machine.execVmuls vd va xb s
  | .vfmas vd va xb => Sys2Proof.Machine.execVfmas vd va xb s
  | .vmins vd va xb => Sys2Proof.Machine.execVmins vd va xb s
  | .vmaxs vd va xb => Sys2Proof.Machine.execVmaxs vd va xb s
  | .vsplat vd xb => Sys2Proof.Machine.execVsplat vd xb s
  | .vcvt vd va ty rnd => Sys2Proof.Machine.execVcvt vd va ty rnd s
  | .vmaxexp va ty => Sys2Proof.Machine.execVmaxexp va ty s
  | .vqnt vd va ty => Sys2Proof.Machine.execVqnt vd va ty s
  | .vdqnt vd va ty => Sys2Proof.Machine.execVdqnt vd va ty s
  | .vrnd vd va rnd => Sys2Proof.Machine.execVrnd vd va rnd s
  | .vrsum vd va => Sys2Proof.Machine.execVrsum vd va s
  | .vrmax vd va => Sys2Proof.Machine.execVrmax vd va s
  | .vrmin vd va => Sys2Proof.Machine.execVrmin vd va s
  | .vramax vd va => Sys2Proof.Machine.execVramax vd va s
  | .vperm vd va vb => Sys2Proof.Machine.execVperm vd va vb s
  | .vext xd va xb => Sys2Proof.Machine.execVext xd va xb s
  | .vins vd xs xb => Sys2Proof.Machine.execVins vd xs xb s
  | .viota vd => Sys2Proof.Machine.execViota vd s
  | .vcompr vd va vb => Sys2Proof.Machine.execVcompr vd va vb s
  | .tcfg t ty rows keep tent => Sys2Proof.Machine.execTcfg t ty rows keep tent s
  | .tzero t => Sys2Proof.Machine.execTzero t s
  | .tmov td ts => Sys2Proof.Machine.execTmov td ts s
  | .ttag t cr xd => Sys2Proof.Machine.execTtag t cr xd s
  | .vld v ar imm => Sys2Proof.Machine.execVld v ar imm s
  | .vst v ar imm => Sys2Proof.Machine.execVst v ar imm s
  | .vlde ar imm => Sys2Proof.Machine.execVlde ar imm s
  | .vste ar imm => Sys2Proof.Machine.execVste ar imm s
  | .frcp vd va => Sys2Proof.Machine.execFrcp vd va s
  | .frsq vd va => Sys2Proof.Machine.execFrsq vd va s
  | .fsqrt vd va => Sys2Proof.Machine.execFsqrt vd va s
  | .fexp2 vd va => Sys2Proof.Machine.execFexp2 vd va s
  | .flog2 vd va => Sys2Proof.Machine.execFlog2 vd va s
  | .fexpt vd va => Sys2Proof.Machine.execFexpt vd va s
  | .ftanh vd va => Sys2Proof.Machine.execFtanh vd va s
  | .fsigm vd va => Sys2Proof.Machine.execFsigm vd va s
  | .gtopk vd va km1 => Sys2Proof.Machine.execGtopk vd va km1 s
  | .gsmax vd va km1 => Sys2Proof.Machine.execGsmax vd va km1 s
  | .ghist vd va => Sys2Proof.Machine.execGhist vd va s
  | .mma tacc ta db kout kin => Sys2Proof.Machine.execMma tacc ta db kout kin s
  | .mmaz tacc ta db kout kin => Sys2Proof.Machine.execMmaz tacc ta db kout kin s
  | .mmat tacc ta db kout kin => Sys2Proof.Machine.execMmat tacc ta db kout kin s
  | .mmag tacc vidx db kout kin => Sys2Proof.Machine.execMmag tacc vidx db kout kin s
  | .mgset dg xs kout kin => Sys2Proof.Machine.execMgset dg xs kout kin s
  | .mdrain kout kin => Sys2Proof.Machine.execMdrain kout kin s
  | .resolve tdst ttent vroute xd => Sys2Proof.Machine.execResolve tdst ttent vroute xd s
  | .tcommit tdst ttent => Sys2Proof.Machine.execTcommit tdst ttent s
  | .tsquash ttent => Sys2Proof.Machine.execTsquash ttent s
  | .rlist xd => Sys2Proof.Machine.execRlist xd s
  | .ldbu cls xd ar imm => Sys2Proof.Machine.execLdbu cls xd ar imm s
  | .ldb cls xd ar imm => Sys2Proof.Machine.execLdb cls xd ar imm s
  | .ldhu cls xd ar imm => Sys2Proof.Machine.execLdhu cls xd ar imm s
  | .ldh cls xd ar imm => Sys2Proof.Machine.execLdh cls xd ar imm s
  | .ldwu cls xd ar imm => Sys2Proof.Machine.execLdwu cls xd ar imm s
  | .ldw cls xd ar imm => Sys2Proof.Machine.execLdw cls xd ar imm s
  | .ldd cls xd ar imm => Sys2Proof.Machine.execLdd cls xd ar imm s
  | .stb cls xs ar imm => Sys2Proof.Machine.execStb cls xs ar imm s
  | .sth cls xs ar imm => Sys2Proof.Machine.execSth cls xs ar imm s
  | .stw cls xs ar imm => Sys2Proof.Machine.execStw cls xs ar imm s
  | .std cls xs ar imm => Sys2Proof.Machine.execStd cls xs ar imm s
  | .aadd scope xd ar xs dbl ord => Sys2Proof.Machine.execAadd scope xd ar xs dbl ord s
  | .amax scope xd ar xs dbl ord => Sys2Proof.Machine.execAmax scope xd ar xs dbl ord s
  | .amin scope xd ar xs dbl ord => Sys2Proof.Machine.execAmin scope xd ar xs dbl ord s
  | .amaxu scope xd ar xs dbl ord => Sys2Proof.Machine.execAmaxu scope xd ar xs dbl ord s
  | .axchg scope xd ar xs dbl ord => Sys2Proof.Machine.execAxchg scope xd ar xs dbl ord s
  | .acas scope xd ar xs dbl ord => Sys2Proof.Machine.execAcas scope xd ar xs dbl ord s
  | .aand scope xd ar xs dbl ord => Sys2Proof.Machine.execAand scope xd ar xs dbl ord s
  | .aor scope xd ar xs dbl ord => Sys2Proof.Machine.execAor scope xd ar xs dbl ord s
  | .cpy dsrc ddst kout kin => Sys2Proof.Machine.execCpy dsrc ddst kout kin s
  | .cpycv dsrc ddst kout kin => Sys2Proof.Machine.execCpycv dsrc ddst kout kin s
  | .cpyz dsrc ddst kout kin => Sys2Proof.Machine.execCpyz dsrc ddst kout kin s
  | .cpyl2 dsrc ddst kout kin => Sys2Proof.Machine.execCpyl2 dsrc ddst kout kin s
  | .cpypf dsrc kout kin => Sys2Proof.Machine.execCpypf dsrc kout kin s
  | .cpywb dsrc kout kin => Sys2Proof.Machine.execCpywb dsrc kout kin s
  | .tkwait k => Sys2Proof.Machine.execTkwait k s
  | .tktest k xd => Sys2Proof.Machine.execTktest k xd s
  | .tkjoin kd ka kb kc => Sys2Proof.Machine.execTkjoin kd ka kb kc s
  | .tkprom k xd => Sys2Proof.Machine.execTkprom k xd s
  | .tkset kd refused => Sys2Proof.Machine.execTkset kd refused s
  | .probe dl kout kin => Sys2Proof.Machine.execProbe dl kout kin s
  | .probew dl kout kin => Sys2Proof.Machine.execProbew dl kout kin s
  | .bar scope xs kout kin => Sys2Proof.Machine.execBar scope xs kout kin s
  | .barba n xs => Sys2Proof.Machine.execBarba n xs s
  | .barbw n kout kin => Sys2Proof.Machine.execBarbw n kout kin s
  | .rtick ring xd => Sys2Proof.Machine.execRtick ring xd s
  | .rfill ring xs ar => Sys2Proof.Machine.execRfill ring xs ar s
  | .rtake ring xd => Sys2Proof.Machine.execRtake ring xd s
  | .rwait ring kout kin => Sys2Proof.Machine.execRwait ring kout kin s
  | .pqpush xk xv => Sys2Proof.Machine.execPqpush xk xv s
  | .pqpop xd => Sys2Proof.Machine.execPqpop xd s
  | .send dl xs kout kin => Sys2Proof.Machine.execSend dl xs kout kin s
  | .sendQ dl xs kout kin => Sys2Proof.Machine.execSendQ dl xs kout kin s
  | .sendr dl xs kout kin => Sys2Proof.Machine.execSendr dl xs kout kin s
  | .recv dl xs kout kin => Sys2Proof.Machine.execRecv dl xs kout kin s
  | .recvq xd xs => Sys2Proof.Machine.execRecvq xd xs s
  | .gretire xs => Sys2Proof.Machine.execGretire xs s
  | .sendG dl xs kout kin => Sys2Proof.Machine.execSendG dl xs kout kin s
  | .plook xd xa => Sys2Proof.Machine.execPlook xd xa s
  | .ptrain xa xb => Sys2Proof.Machine.execPtrain xa xb s
  | .pclr => Sys2Proof.Machine.execPclr s
  | .pcfg xa => Sys2Proof.Machine.execPcfg xa s
  | .sjoin xd => Sys2Proof.Machine.execSjoin xd s
  | .spub dl kout kin => Sys2Proof.Machine.execSpub dl kout kin s
  | .scons dl kout kin => Sys2Proof.Machine.execScons dl kout kin s
  | .sendComplete core op => Sys2Proof.Machine.execSendComplete core op s
  | .atomicReturn core op => Sys2Proof.Machine.execAtomicReturn core op s
  | .reservedCommand q => Sys2Proof.Machine.execReservedCommand q s
  | .fabricReset => Sys2Proof.Machine.execFabricReset s
  | .engineUnmappedPage core op => Sys2Proof.Machine.execEngineUnmappedPage core op s
  | .engineErrorDetection core op line => Sys2Proof.Machine.execEngineErrorDetection core op line s

end Sys2Proof.Machine
end

