-- ==== Sys2Proof/Machine/Due.lean ====
section
/-!
DEFINITION. The happenings inside the package that are due at a moment, in the order in which the model lets them happen where
the spec leaves the order of one instant open (log 1): the event instructions that `step` takes before time goes on.
-/
namespace Sys2Proof.Machine

/-- A happening inside the package, one for each event instruction that `step` takes by itself. -/
inductive Happening where
  | nopCommand (q : Nat)
  | ctxCreate (q : Nat)
  | ctxDestroy (q : Nat)
  | imgLoad (q : Nat)
  | imgUnload (q : Nat)
  | launch (q : Nat)
  | pipeBind (q : Nat)
  | attest (q : Nat)
  | priorityAging (k : Nat)
  | kernelPlacement
  | quantumExpiry (k : Nat)
  | preemptionPoint (core : Nat)
  | saveComplete (core : Nat)
  | placementEnd (rod : Nat)
  | restoreComplete (core : Nat)
  | kernelRetire (k : Nat)
  | finalAccounts (asid : Nat)
  | abacusFlush (core : Nat)
  | chargeRunClose (core : Nat)
  | windowEnd (rod : Nat)
  | opChangeBegin (rod : Nat)
  | rampEnd (rod : Nat)
  | relockEnd (rod : Nat)
  | permitSpent (panel : Nat)
  | permitEarned (panel : Nat)
  | boostFallSecondStep (panel : Nat)
  | poolClaim (panel : Nat)
  | poolGrant (die : Nat)
  | poolWithdraw (panel : Nat)
  | thermalDwellEnd (panel : Nat)
  | quiesceEnd (rod : Nat)
  | saveStateEnd (rod : Nat)
  | holdEnd (rod : Nat)
  | railDownEnd (rod : Nat)
  | inrushAdmit (die : Nat)
  | inrushRampEnd (rod : Nat)
  | wakeRestoreEnd (rod : Nat)
  | fetchFill (core : Nat)
  | loadReturn (core : Nat) (op : Nat)
  | storePerform (core : Nat) (op : Nat)
  | copyAccept (core : Nat) (op : Nat)
  | copyComplete (core : Nat) (op : Nat)
  | promiseMissed (core : Nat) (op : Nat)
  | stagingResizeComplete (rod : Nat)
  | syncComplete
  | probeAccept (core : Nat)
  | probeFault (core : Nat)
  | probeComplete (core : Nat)
  | matrixOpStart (core : Nat)
  | matrixOpComplete (core : Nat)
  | specComplete (core : Nat)
  | barrierArrival (core : Nat) (op : Nat)
  | ticketGrant (core : Nat)
  | sleepEnd (core : Nat)
  | waitwEnd (core : Nat)
  | stageElementLanded (core : Nat) (op : Nat)
  | elementPublished (entry : Nat)
  | creditGrant (peer : Nat) (chan : Nat)
  | sendAccept (core : Nat) (op : Nat)
  | messageArrival (peer : Nat) (chan : Nat) (m : Message)
  | markerArrival (peer : Nat) (chan : Nat) (gen : BitVec 8)
  | recvPosted (core : Nat) (op : Nat)
  | recvAccept (core : Nat) (op : Nat)
  | recvComplete (core : Nat) (op : Nat)
  | contributionArrival (slot : Nat) (c : Contribution)
  | reductionTimeout (slot : Nat)
  | sendrAnswer (core : Nat) (op : Nat)
  | gateLoadComplete (die : Nat)
  | trapEntry (core : Nat)
  | debugHalt (core : Nat)
  | pageRetirement (frame : Nat)
  | wayQuarantine (slice : Nat) (way : Nat)
  | sendComplete (core : Nat) (op : Nat)
  | atomicReturn (core : Nat) (op : Nat)
  | reservedCommand (q : Nat)
  | engineUnmappedPage (core : Nat) (op : Nat)
  | engineErrorDetection (core : Nat) (op : Nat) (line : Nat)
  | powerSample (watts : Nat)
  | thermalReading (panel : Nat) (steps : Nat)
  | patrolScrub (line : Nat)
  deriving DecidableEq, Repr

/-- A happening is its event instruction, carried out. -/
def Happening.run : Happening → State → Out
  | .nopCommand q => execNopCommand q
  | .ctxCreate q => execCtxCreate q
  | .ctxDestroy q => execCtxDestroy q
  | .imgLoad q => execImgLoad q
  | .imgUnload q => execImgUnload q
  | .launch q => execLaunch q
  | .pipeBind q => execPipeBind q
  | .attest q => execAttest q
  | .priorityAging k => execPriorityAging k
  | .kernelPlacement => execKernelPlacement
  | .quantumExpiry k => execQuantumExpiry k
  | .preemptionPoint core => execPreemptionPoint core
  | .saveComplete core => execSaveComplete core
  | .placementEnd rod => execPlacementEnd rod
  | .restoreComplete core => execRestoreComplete core
  | .kernelRetire k => execKernelRetire k
  | .finalAccounts asid => execFinalAccounts asid
  | .abacusFlush core => execAbacusFlush core
  | .chargeRunClose core => execChargeRunClose core
  | .windowEnd rod => execWindowEnd rod
  | .opChangeBegin rod => execOpChangeBegin rod
  | .rampEnd rod => execRampEnd rod
  | .relockEnd rod => execRelockEnd rod
  | .permitSpent panel => execPermitSpent panel
  | .permitEarned panel => execPermitEarned panel
  | .boostFallSecondStep panel => execBoostFallSecondStep panel
  | .poolClaim panel => execPoolClaim panel
  | .poolGrant die => execPoolGrant die
  | .poolWithdraw panel => execPoolWithdraw panel
  | .thermalDwellEnd panel => execThermalDwellEnd panel
  | .quiesceEnd rod => execQuiesceEnd rod
  | .saveStateEnd rod => execSaveStateEnd rod
  | .holdEnd rod => execHoldEnd rod
  | .railDownEnd rod => execRailDownEnd rod
  | .inrushAdmit die => execInrushAdmit die
  | .inrushRampEnd rod => execInrushRampEnd rod
  | .wakeRestoreEnd rod => execWakeRestoreEnd rod
  | .fetchFill core => execFetchFill core
  | .loadReturn core op => execLoadReturn core op
  | .storePerform core op => execStorePerform core op
  | .copyAccept core op => execCopyAccept core op
  | .copyComplete core op => execCopyComplete core op
  | .promiseMissed core op => execPromiseMissed core op
  | .stagingResizeComplete rod => execStagingResizeComplete rod
  | .syncComplete => execSyncComplete
  | .probeAccept core => execProbeAccept core
  | .probeFault core => execProbeFault core
  | .probeComplete core => execProbeComplete core
  | .matrixOpStart core => execMatrixOpStart core
  | .matrixOpComplete core => execMatrixOpComplete core
  | .specComplete core => execSpecComplete core
  | .barrierArrival core op => execBarrierArrival core op
  | .ticketGrant core => execTicketGrant core
  | .sleepEnd core => execSleepEnd core
  | .waitwEnd core => execWaitwEnd core
  | .stageElementLanded core op => execStageElementLanded core op
  | .elementPublished entry => execElementPublished entry
  | .creditGrant peer chan => execCreditGrant peer chan
  | .sendAccept core op => execSendAccept core op
  | .messageArrival peer chan m => execMessageArrival peer chan m
  | .markerArrival peer chan gen => execMarkerArrival peer chan gen
  | .recvPosted core op => execRecvPosted core op
  | .recvAccept core op => execRecvAccept core op
  | .recvComplete core op => execRecvComplete core op
  | .contributionArrival slot c => execContributionArrival slot c
  | .reductionTimeout slot => execReductionTimeout slot
  | .sendrAnswer core op => execSendrAnswer core op
  | .gateLoadComplete die => execGateLoadComplete die
  | .trapEntry core => execTrapEntry core
  | .debugHalt core => execDebugHalt core
  | .pageRetirement frame => execPageRetirement frame
  | .wayQuarantine slice way => execWayQuarantine slice way
  | .sendComplete core op => execSendComplete core op
  | .atomicReturn core op => execAtomicReturn core op
  | .reservedCommand q => execReservedCommand q
  | .engineUnmappedPage core op => execEngineUnmappedPage core op
  | .engineErrorDetection core op line => execEngineErrorDetection core op line
  | .powerSample watts => execPowerSample watts
  | .thermalReading panel steps => execThermalReading panel steps
  | .patrolScrub line => execPatrolScrub line

/-- A step where its condition holds. -/
def dueIf (b : Bool) (i : Happening) : Option Happening := if b then some i else none

/-! ### Cores -/

/-- Does an access that stands in the queue land now, or is it performed: a load only as it returns (R279, R280, R284, R287)? -/
def State.accessGo (s : State) (core id : Nat) : Bool :=
  match (s.core core).eng.memq.span (fun o => o.id != id) with
  | (_, []) => false
  | (pre, op :: _) => (op.performed && op.ripe s core) || (s.mayPerform core pre op && (!op.kind.isLoad || op.ripe s core))

/-- The first access of a core that lands or is performed now. -/
def State.memDue (s : State) (core : Nat) : Option Happening :=
  ((s.core core).eng.memq.find? fun o => s.accessGo core o.id).bind fun o => match o.kind with
    | .load _ => some (.loadReturn core o.id)
    | .store => some (.storePerform core o.id)
    | .atomic _ _ => some (.atomicReturn core o.id)
    | .later _ _ _ _ => none

/-- A line that an accepted copy reads and that holds a planted error where the copy reads it. What sends and publishes has read its source
by its acceptance. -/
def State.plantedLine (s : State) (n : Nat) (o : EngOp) : Option Nat :=
  if s.errors.planted.isEmpty then none
  else
    let reads := match o.kind with
      | .copy _ _ _ => s.opSpans n o
      | _ => []
    let lines := (reads.filter fun e => !e.2.1).flatMap spanLines
    (lines.filterMap fun ln => s.dramLine ln false).find? fun d =>
      s.errors.planted.any fun e => e.1 == d && e.2.1 == !s.l2Holds d

/-- What an accepted engine operation does now, by its core or saved core. -/
def State.acceptedDue (s : State) (n : Nat) (o : EngOp) : Option Happening :=
  if !o.accepted then none
  else match s.plantedLine n o with
  | some d => some (.engineErrorDetection n o.id d)
  | none =>
    let ripe := decide (o.aux + o.late ≤ s.tick)
    if (s.opHole n o).isSome then
      dueIf (ripe && (match s.asidAt n with
        | some a => !(s.ctx a).ending
        | none => false)) (.engineUnmappedPage n o.id)
    else if !ripe || s.opWaits n o then none
    else match o.kind with
      | .copy _ _ _ => some (.copyComplete n o.id)
      | .send _ _ _ x =>
        let ref := if n < 256 then s.refOf n else n
        dueIf (!(s.chan (routeChan x)).wire.any fun w => w.core == ref && w.op == o.id) (.sendComplete n o.id)
      | .recv _ _ => dueIf o.msg.isSome (.recvComplete n o.id)
      | .scons _ => dueIf (o.msg.isSome && decide (n < 256)) (.stageElementLanded n o.id)
      | _ => none

/-- Is there room for a core's arrival at a barrier of a scope (R302)? -/
def State.barRoom (s : State) (core : Nat) (scope : Scope) (tag : BitVec 16) : Bool :=
  let kn := ((s.core core).unit.kernel).getD 0
  let home := if scope == .rod then rodOf core else panelOf core
  let mine := fun b : BarInst => b.scope == scope && b.tag == tag &&
    (scope == .domain || (b.kernel == kn && b.parts.contains (s.idxOf core)))
  scope == .core || s.fabric.bars.any mine ||
    decide (s.barLive scope home < (if scope == .domain then 64 else 16))

/-- What an operation that its engine has not accepted does now. -/
def State.offeredDue (s : State) (core : Nat) (o : EngOp) : Option Happening :=
  let c := s.core core
  let refused := c.arch.tokState o.kin == .refused
  if o.accepted || !c.arch.tokEnded o.kin then none
  else match o.kind with
    | .bar scope x =>
      dueIf (s.engGo core o.id && (refused || (s.fenceMet core scope o.id && s.barRoom core scope (x.truncate 16))))
        (.barrierArrival core o.id)
    | kind =>
      if !s.engGo core o.id then none
      else match kind with
        | .copy f src _ => dueIf (refused || (!s.storesPending core o.id f (s.last core src) && !s.readsWait core o.id ((s.sidesOf core o).copySpans f)))
            (.copyAccept core o.id)
        | .sendr d x =>
          let l := s.last core d
          dueIf (refused || s.sendrReason core l x != 0 || !s.sourceWaits core o.id l) (.sendAccept core o.id)
        | .send _ _ _ x => dueIf (o.aux == 0 || (o.aux == 1 && !c.sendBehind o.id (routeChan x) 2)) (.sendAccept core o.id)
        | .scons d =>
          let take := match s.stageAt core with
            | none => true
            | some (e, en) => stageReason (s.last core d) en.ibytes true != 0 || (match s.nextElement core e en with
                | .ok none => false
                | _ => true)
          dueIf (refused || take) (.stageElementLanded core o.id)
        | _ => none

/-- May an operation that its engine has not accepted go on, its kin ended? -/
def State.offeredGo (s : State) (core : Nat) (o : EngOp) : Bool :=
  !o.accepted && (s.core core).arch.tokEnded o.kin && s.engGo core o.id

/-- A RECV that is posted in this tick, in issue order (R323). -/
def State.postDue (s : State) (core : Nat) (o : EngOp) : Option Happening :=
  match o.recvChan with
  | none => none
  | some i => dueIf (o.aux == 0 && s.offeredGo core o
      && !(s.core core).eng.eng.any fun e => decide (e.id < o.id) && e.recvChan == some i && e.aux == 0) (.recvPosted core o.id)

/-- A posted RECV that takes the message at the head of its queue in this tick (R323). -/
def State.takeDue (s : State) (core : Nat) (o : EngOp) : Option Happening :=
  match o.kind with
  | .recv d x =>
    let i := routeChan x
    let l := s.last core d
    match (s.chan i).queue, (s.chan i).posted with
    | _ :: _, h :: _ =>
      dueIf (o.aux != 0 && s.offeredGo core o && h == (s.refOf core, o.id)
        && decide (s.rate core (s.recvUse core i l) l.elemBytes ≥ 8)) (.recvAccept core o.id)
    | _, _ => none
  | _ => none

/-- A SEND that is accepted in this tick: its grant is there, and the rate suffices (R321, R322). -/
def State.sendDue (s : State) (core : Nat) (o : EngOp) : Option Happening :=
  match o.kind with
  | .send _ _ d x =>
    let l := s.last core d
    let i := routeChan x
    dueIf (decide (2 ≤ o.aux) && s.offeredGo core o && (s.grantOf i (s.refOf core) o.id).isSome
      && !(s.core core).sendBehind o.id i 3 && !s.sourceWaits core o.id l
      && decide (s.rate core (s.sendUse core i l) l.elemBytes ≥ 8)) (.sendAccept core o.id)
  | _ => none

/-- What the probe of a core does now (R269 to R271). -/
def State.probeDue (s : State) (core : Nat) : Option Happening :=
  match (s.core core).eng.probe with
  | none => none
  | some p =>
    if p.accepted then
      (if p.ripe s && (s.core core).walks then some (if (s.probeMiss core p).isSome then .probeFault core else .probeComplete core) else none)
    else dueIf (s.probeGo core p) (.probeAccept core)

/-- A probe's walk that reaches a missing page now goes before a pre-emption at the same boundary (R273). -/
def State.faultDue (s : State) (core : Nat) : Option Happening := (s.probeDue core).filter (· == .probeFault core)

/-- The operation of a core whose promise has been missed, the lowest token first (R256, R370). -/
def State.missDue (s : State) (core : Nat) : Option Nat :=
  let c := s.core core
  if c.unit.kernel.isNone then none
  else
    let late := c.arch.ops.filter fun o => !o.missRaised && (match o.promise with
      | some p => decide (p < s.tick) && o.st != .refused && !(o.st == .complete && decide (o.doneTick ≤ p))
      | none => false)
    (late.foldl (fun (b : Option (Nat × Nat)) o =>
      let k := c.arch.tokenOf o.id
      match b with
      | none => some (k, o.id)
      | some e => if k < e.1 then some (k, o.id) else b) none).map (·.2)

/-- A marker that can leave a core or saved core (R327). -/
def State.markerDue (s : State) (n : Nat) : Option Happening :=
  ((s.coreAt n).markerReady).bind fun e =>
    dueIf (s.ownChan (routeChan e.2)) (.markerArrival (routeChan e.2 / 16) (routeChan e.2 % 16) (routeGen e.2))

/-- What happens at the start of a cycle of a core (R191, R359, R370, R384). -/
def State.cycleDue (s : State) (core : Nat) : Option Happening :=
  let c := s.core core
  if (s.rod (rodOf core)).clk.turn ≠ 5 then none
  else if c.matrixDone.isSome then some (.matrixOpComplete core)
  else if s.matrixGo core then some (.matrixOpStart core)
  else if (match c.eng.spec with
    | some o => decide (o.doneCyc ≤ c.cyc)
    | none => false) then some (.specComplete core)
  else if !c.seq.pendTraps.isEmpty && (s.nextTrap core).isSome then some (.trapEntry core)
  else dueIf (c.dbg.pend != 0 && s.canHalt core) (.debugHalt core)

/-- Does a pre-emption request, which has the highest code, wait for a pending class or one that the next bundle raises (R370, Table
20-13)? A class that can only end a context whose end has begun is not waited for, nor what is pending behind it (R372). -/
def State.pointWaits (s : State) (core : Nat) : Bool :=
  let c := s.core core
  let ended := match s.asidOf core with
    | some a => (s.ctx a).ending
    | none => true
  let next := s.nextClass core
  let blocked := !(c.seq.pendTraps.any fun f => decide (4 ≤ f.1) && decide (f.1 ≤ 6)) && match next with
    | some cls => ended && (cls == 0 || c.arch.priv)
    | none => false
  match c.seq.pre with
  | .requested _ => !c.unit.ended && !c.dbg.halted && !blocked && ((!c.arch.priv && !c.seq.pendTraps.isEmpty) || next.isSome)
  | _ => false

/-- What a core does of itself now. -/
def State.seqDue (s : State) (core : Nat) : Option Happening :=
  let c := s.core core
  let q := c.seq
  if (match q.sleepTo with | some w => decide (w ≤ s.tick) | none => false) then some (.sleepEnd core)
  else if (match q.waitw with | some w => decide (w ≤ s.tick) || q.wakeFlag | none => false) then some (.waitwEnd core)
  else if (match q.fill with | some f => decide (f.2 ≤ s.tick) | none => false) then some (.fetchFill core)
  else if s.ticketTurn core && (match q.ticketWait with
    | [] => false
    | (_, ring, _) :: _ => match s.ringOf core ring.toNat with
      | none => true
      | some r => r.hasTicket) then some (.ticketGrant core)
  else if c.flushDue then some (.abacusFlush core)
  else if c.acct.acs.en && !c.acct.acs.err && decide (c.acct.acs.runCount ≥ 2 ^ 48 - 1) then some (.chargeRunClose core)
  else if s.pointDue core && !s.pointWaits core then some (.preemptionPoint core)
  else if s.saveDue core then some (.saveComplete core)
  else dueIf (s.restoreDue core) (.restoreComplete core)

/-- What is due on a core. -/
def State.coreDue (s : State) (core : Nat) : Option Happening :=
  let os := (s.core core).eng.eng
  s.faultDue core <|> s.seqDue core <|> s.memDue core <|> os.findSome? (s.acceptedDue core) <|> os.findSome? (s.offeredDue core)
    <|> s.probeDue core <|> (s.missDue core).map (Happening.promiseMissed core) <|> s.markerDue core <|> s.cycleDue core

/-- What is due on a saved core, whose accepted operations run on (R260, R333). -/
def State.savedDue (s : State) (n : Nat) : Option Happening :=
  (s.coreAt n).eng.eng.findSome? (s.acceptedDue n) <|> s.markerDue n

/-! ### Rods, panels and dies -/

/-- What is due on a rod, but for its operating point. -/
def State.rodDue (s : State) (rod : Nat) : Option Happening :=
  let r := s.rod rod
  let sl := r.slice
  let overrun := decide (r.pm.till ≤ s.tick)
  if r.clk.wcyc ≥ 64 then some (.windowEnd rod)
  else if sl.busy && decide (sl.till ≤ s.tick) && !(decide (sl.waysNew < sl.ways) && s.stagingInUse rod sl.waysNew) then
    some (.stagingResizeComplete rod)
  else if r.placeLeft = 1 && !s.argsRetiring rod then some (.placementEnd rod)
  else if !overrun then none
  else match r.pm.state with
    | .quiesce => some (.quiesceEnd rod)
    | .save => dueIf r.between (.saveStateEnd rod)
    | .hold => some (.holdEnd rod)
    | .railDown => some (.railDownEnd rod)
    | .waking => if r.pm.ramping then some (.inrushRampEnd rod) else if r.pm.restoring then some (.wakeRestoreEnd rod) else none
    | .on | .clockGated | .railGated => none

/-- What the operating point of a rod does now (R227). -/
def State.pointChangeDue (s : State) (rod : Nat) : Option Happening :=
  match (s.rod rod).clk.change with
  | some c =>
    if c.relock then dueIf (decide (c.till ≤ s.tick)) (.relockEnd rod)
    else if s.changeDue rod then some (.opChangeBegin rod)
    else dueIf (s.rampOver rod) (.rampEnd rod)
  | none => dueIf (s.changeDue rod) (.opChangeBegin rod)

/-- What is due of a panel's permits and its fall (R231, R232, R236). -/
def State.permitDue (s : State) (panel : Nat) : Option Happening :=
  let p := s.panel panel
  if p.d ≥ 28000 then some (.permitSpent panel)
  else if p.f ≥ 28000 then some (.permitEarned panel)
  else if (match p.fall with | some t => decide (t ≤ s.tick) | none => false) then some (.boostFallSecondStep panel)
  else dueIf (s.dwellDue panel) (.thermalDwellEnd panel)

/-- Is a pool claim to be withdrawn, or a place to be released (R233)? -/
def State.withdrawPoolDue (s : State) (panel : Nat) : Bool :=
  (!s.wants7 panel && (s.panel panel).claim.isSome) || s.poolIdle panel

/-- Is a pool place to be claimed (R233)? -/
def State.claimDue (s : State) (panel : Nat) : Bool :=
  s.wants7 panel && !(s.panel panel).pool && (s.panel panel).claim.isNone

/-- Is a waiting claim to be granted (R233)? -/
def State.poolGrantDue (s : State) (die : Nat) : Bool := decide (s.poolHeld die < 2) && (s.nextClaim die).isSome

/-- A measurement of power or temperature that is due, with a free value (R235, R236, log 1). -/
def State.sensorDue (s : State) : Option Happening :=
  if s.sampleDue then some (.powerSample (Config.choiceAt 8 s.tick 0 % 65536))
  else ((List.range 16).find? s.readingDue).map fun p => .thermalReading p (Config.choiceAt 9 s.tick p % 1024)

/-- What is due of power, at a tick: measurements first; then permits and falls, the ends of relocks, the pools, and last the
changes. -/
def State.powerDue (s : State) : Option Happening :=
  if s.now % 360 ≠ 0 then none
  else
    let ps := List.range 16
    let rs := List.range 64
    let ds := List.range 2
    s.sensorDue <|> ps.findSome? s.permitDue
      <|> rs.findSome? (fun r => match (s.rod r).clk.change with
        | some c => if c.relock then s.pointChangeDue r else none
        | none => none)
      <|> ps.findSome? (fun p => dueIf (s.withdrawPoolDue p) (.poolWithdraw p))
      <|> ds.findSome? (fun d => dueIf (s.poolGrantDue d) (.poolGrant d))
      <|> ps.findSome? (fun p => dueIf (s.claimDue p) (.poolClaim p))
      <|> rs.findSome? s.pointChangeDue

/-- What is due of a die (R339). -/
def State.dieDue (s : State) (die : Nat) : Option Happening :=
  dueIf (match (s.die die).load with
    | some l => decide (l.till ≤ s.tick) && !s.linesRetiring (linesOf [(l.src, l.len)])
    | none => false) (.gateLoadComplete die)

/-! ### The package -/

/-- The instruction that serves the command at the head of a launch queue, by its OP (Table 4-7). -/
def commandOf (q op : Nat) : Happening := match op with
  | 0 => .nopCommand q
  | 1 => .ctxCreate q
  | 2 => .ctxDestroy q
  | 3 => .imgLoad q
  | 4 => .imgUnload q
  | 5 => .launch q
  | 6 => .pipeBind q
  | 7 => .attest q
  | _ => .reservedCommand q

/-- The command of a queue that is served now (R62). -/
def State.queueDue (s : State) (q : Nat) : Option Happening :=
  let l := s.lq q
  if s.serves q && (match l.serveAt with | some t => decide (t ≤ s.tick) | none => false) then
    some (commandOf q (fieldAt (s.command q) 0 1))
  else none

/-- What arrives at a channel end of the package's own (R318). -/
def State.chanDue (s : State) (i : Nat) : Option Happening :=
  if !s.ownChan i then none
  else (s.chan i).wire.head?.bind fun w => dueIf (decide (w.arrives ≤ s.tick)) (.messageArrival (i / 16) (i % 16) w.msg)

/-- The request that a channel end grants in this tick (R321). -/
def State.grantDue (s : State) (i : Nat) : Option Happening :=
  if s.ownChan i then dueIf (s.canGrant i) (.creditGrant (i / 16) (i % 16))
  else dueIf (s.chan i).canAdmit (.creditGrant (i / 16) (16 + i % 16))

/-- What is due of the switches (R330, R332). -/
def State.switchDue (s : State) (e : SwitchMsg) : Option Happening :=
  match e with
  | .contribution _ _ slot c t =>
    dueIf (decide (t < s.tick)) (if c.pkg == s.regs.domain then .contributionArrival slot c else .reductionTimeout slot)
  | .answer core op _ t => dueIf (decide (t ≤ s.tick)) (.sendrAnswer core op)
  | .result i m t =>
    dueIf (decide (t ≤ s.tick) && s.ownChan i && (s.chan i).wire.isEmpty && s.firstResult i == some e && (s.takeResult i m).isSome)
      (.messageArrival (i / 16) (i % 16) m)

/-- What is due of a kernel (R71, R73, R402). -/
def State.kernelDue (s : State) (k : Kernel) : Option Happening :=
  if s.retireDue k then some (.kernelRetire k.num)
  else if s.quantumDue k then some (.quantumExpiry k.num)
  else dueIf (s.agingDue k) (.priorityAging k.num)

/-- What is due of the package's own units. -/
def State.packageDue (s : State) : Option Happening :=
  dueIf s.syncEnds .syncComplete
    <|> (s.errors.retiring.find? fun e => decide (e.2.1 ≤ s.tick)).map (fun e => Happening.pageRetirement e.1)
    <|> s.scrubDue.map Happening.patrolScrub
    <|> (s.errors.quarantine.find? fun e => decide (e.2.2.1 ≤ s.tick)).map (fun e => Happening.wayQuarantine e.1 e.2.1)
    <|> s.fabric.switch.findSome? s.switchDue
    <|> (List.range 1024).findSome? (fun i => match (s.redSlot i).inst.bind (·.deadline) with
      | some t => dueIf (decide (t < s.tick)) (.reductionTimeout i)
      | none => none)
    <|> (List.range 256).findSome? s.chanDue
    <|> (List.range 256).findSome? (fun e => dueIf (s.publishDue e) (.elementPublished e))
    <|> (List.range 64).findSome? s.queueDue
    <|> s.work.kernels.findSome? s.kernelDue
    <|> (List.range 512).findSome? (fun a => dueIf (s.finalDue a) (.finalAccounts a))
    <|> dueIf s.placeDue .kernelPlacement

/-- The happening inside the package that is due next at this moment. -/
def State.due (s : State) : Option Happening :=
  (List.range 64).findSome? s.rodDue <|> s.powerDue <|> (List.range 2).findSome? s.dieDue
    <|> s.packageDue <|> (List.range 256).findSome? s.coreDue
    <|> (s.work.kernels.filter fun k => k.st != .placed).findSome? fun k =>
      (List.range k.saved.length).findSome? fun i => s.savedDue (256 + 256 * k.num + i)

/-- What an operation of the cores does at the end of a tick: the lowest core first, and in a core the operation issued first. -/
def State.endOp (s : State) (f : Nat → EngOp → Option Happening) : Option Happening :=
  (List.range 256).findSome? fun core => (s.core core).eng.eng.findSome? (f core)

/-- What the package does at the end of a tick, where the spec orders what happens in one tick by the number of a core or a rod and so by no
clock edge in it: RECVs are posted and take their messages, credit is granted, SENDs are accepted (R321, R323, R334), and rods are admitted to
the in-rush (R240). -/
def State.endDue (s : State) : Option Happening :=
  s.endOp s.postDue <|> s.endOp s.takeDue <|> (List.range 256).findSome? s.grantDue <|> s.endOp s.sendDue
    <|> ((List.range 2).find? fun d => (s.nextInrush d).isSome).map Happening.inrushAdmit

end Sys2Proof.Machine
end

