-- ==== Sys2Proof/Machine/Issue.lean ====
section
/-!
DEFINITION. The cycles of rods and cores and the flow of time (R4, R115, R116, R207 to R217): what each core does in each cycle,
how a bundle issues, and how time goes on when nothing is due.
-/
namespace Sys2Proof.Machine

/-! ### What a core does in a cycle (Table 11-1) -/

/-- Rows 1 to 6 of Table 11-1: why a core issues nothing, before its program is looked at. -/
def State.rowCause (s : State) (core : Nat) : Option Nat :=
  let c := s.core core
  let r := s.rod (rodOf core)
  let there := r.placeLeft == 0 && r.pm.state == .on
  let moving := match c.seq.pre with
    | .running | .requested _ | .saved .stop => false
    | _ => true
  if c.dbg.halted then some causeDebug
  else if there && moving then some causePreempt
  else if r.placeLeft != 0 || r.clk.relocking || r.pm.state == .waking || (r.kernel.isSome && r.pm.state != .on) then
    some causeTransition
  else if c.unit.kernel.isNone || c.unit.ended || c.seq.pre == .saved .stop then some causeIdle
  else if r.clk.throt then some causeThrottle
  else if c.seq.trapSeq.isSome then some causeTrap
  else none

/-- The program counter charged in a cycle in which no program bundle issues (Table 11-7). DESIGN CHOICE: a core that is idle and has issued
no HALT is charged at the pc at which its units ended, or at 0 (log 30). -/
def Core.chargedPc (c : Core) (cause : Nat) : Word :=
  if cause = causeIdle then c.unit.haltPc
  else if cause = causeTrap then (match c.seq.trapSeq with
    | some (.entry _ _ _) => c.arch.ctl.tepc
    | _ => c.arch.pc)
  else c.arch.pc

/-- Is a core fill-eligible (R214)? -/
def State.fillEligible (s : State) (core : Nat) : Bool := (s.rowCause core).isNone && !(s.core core).arch.priv

/-- A rod's cycle begins: fillers are chosen, and they count in the rod's total (R214, R216). -/
def State.beginCycle (s : State) (rod : Nat) : State :=
  let k := (s.rod rod).clk
  let top := k.sums.foldl Nat.max 0
  let fills : Vector Bool 4 := k.sums.mapIdx fun i w => s.fillEligible (4 * rod + i) && decide (top - w > 48)
  s.modRod rod fun r => { r with clk := { r.clk with
    turn := 0, fill := fills, total := k.sums.sum + 3 * (fills.toList.filter id).length } }

/-- The sequences of a core go on by one cycle: a trap sequence, a LOOP's walk, and the landing of results at a pre-emption
point (R148, R373, R379). -/
def Core.tickSeq (c : Core) : Core :=
  let c := { c with seq := { c.seq with
    walk := c.seq.walk - 1,
    trapSeq := match c.seq.trapSeq with
      | some (.entry n k d) => if n ≤ 1 then none else some (.entry (n - 1) k d)
      | some (.ret n) => if n ≤ 1 then none else some (.ret (n - 1))
      | none => none } }
  match c.seq.pre with
  | .landing k n =>
    if n ≤ 1 then { c.landAll with seq := { c.seq with pre := .landing k 0 } }
    else { c with seq := { c.seq with pre := .landing k (n - 1) } }
  | _ => c

/-- Is a cycle of a cause counted by the watchdog (R383)? -/
def watchCause (cause : Nat) : Bool := cause != causePreempt && cause != causeDebug && cause != causeIdle

/-- Is a cycle of a cause counted in the length of a section or an iteration (R56)? One that has not begun does not count the cycles of
a pre-emption and of the placement after it (log 30). -/
def sectionCause (cause : Nat) (begun away : Bool) : Bool :=
  cause != causeTrap && cause != causeDebug && cause != causeIdle && (begun || !away)

/-- A cycle of a core counted by the watchdog, and in the length of its section (R56, R383). -/
def State.countCycle (s : State) (core cause : Nat) : Out :=
  let u := (s.core core).unit
  let away := cause == causePreempt || (s.rod (rodOf core)).placeLeft != 0
  let sec := sectionCause cause (u.secCyc != 0) away
  if u.kernel.isNone || !(watchCause cause || sec) then .next s
  else execWatchdog core (s.modCore core fun c => { c with unit := { c.unit with
    wdog := if watchCause cause then c.unit.wdog + 1 else c.unit.wdog
    secCyc := if sec then c.unit.secCyc + 1 else c.unit.secCyc } })

/-- A core issues nothing in its turn: the cycle is charged to a cause and its sequences go on. -/
def State.idleTurn (s : State) (core cause : Nat) : Out :=
  let pc := (s.core core).chargedPc cause
  (s.countCycle core cause).andThen fun s =>
    .next (((s.chargeCycle core pc cause).modCore core Core.tickSeq).endTurn core 0)

/-- The next bundle raises a class before it commits (R131, R371): the trap is taken with it as return address. -/
def State.faultTurn (s : State) (core : Nat) (f : Nat × BitVec 64) : Out :=
  let s := s.takeTrap core f.1 f.2 (s.core core).arch.pc
  if (s.core core).seq.trapSeq.isSome then (s.modCore core Core.entryDbg).idleTurn core causeTrap
  else s.idleTurn core causePreempt

/-! ### The issue of a bundle (R115, R116, R120) -/

/-- The place of a slot in the order in which the model carries a bundle out. Every slot reads the state before the bundle
(R116); reads of shared registers come first, and a RESOLVE, whose marks a write of its routing tile in the same bundle clears wherever it
stands (R361); then the other slots, writes of registers that select others, and a control transfer last. -/
def slotRank : Instr → Nat
  | .rdctl _ _ | .plook _ _ | .resolve _ _ _ _ => 0
  | .wrctl _ n => if [0x048, 0x058, 0x150, 0x180, 0x1A0].contains n.toNat then 2 else 1
  | i => if isTransferSlot i then 3 else 1

/-- Slots of a bundle with their numbers, in that order. DESIGN CHOICE: of two WRCTLs of one control index, the higher slot's value stands
(log 19). -/
def slotOrder (is : List (Instr × Nat)) : List (Instr × Nat) := sortBy (fun e => slotRank e.1) is

/-- Slots carried out in a given order. -/
def runSlots : List (Instr × Nat) → State → Out
  | [], s => .next s
  | e :: es, s => Out.andThen (exec e.1 { s with slot := e.2 }) (runSlots es)

/-- The saved operating point request of a core comes back. -/
def Core.takeHeldReq (c : Core) : Core :=
  { c with arch := { c.arch with opReq := c.seq.heldReq.getD c.arch.opReq }, seq := { c.seq with heldReq := none } }

/-- The first issue of a resumed kernel puts the saved requests of all its cores back (R229). -/
def State.firstIssue (s : State) : State :=
  if s.me.seq.heldReq.isNone then s
  else match s.kernelOf s.act with
    | some k => k.cores.foldl (fun (s : State) c => s.modCore c Core.takeHeldReq) s
    | none => s

/-- What issuing does before the slots: the words are read in the L1, saved operating point requests come back, the FENCEs in force, now
met, show the core what came before them, and the address of the next bundle by order is fixed (R139, R207, R229, R278). -/
def State.openBundle (s : State) (n : Nat) : State :=
  let lines := s.bundleAddrs s.act
  let s := if s.me.seq.fence.isEmpty then s else s.catchUp s.act
  s.firstIssue.onMe fun c =>
    let c := lines.foldl Core.l1Fill c
    { c with
      unit := { c.unit with started := false },
      seq := { c.seq with next := c.arch.pc + BitVec.ofNat 64 (4 * n), width := n, redirected := false, bundleDeltas := [], fence := [] } }

/-- What follows the slots: fetch goes on (R120), a debugger's STEP ends (R384), and the weight counts (R211, R216). -/
def State.closeBundle (s : State) (core w : Nat) : State :=
  let s := if (s.core core).seq.redirected then s else s.followOn core
  let traps := (s.core core).seq.trapSeq.isSome || (s.nextTrap core).isSome
  let s := s.modCore core fun c =>
    if !c.dbg.step then c
    else if c.dbg.halted then { c with dbg := { c.dbg with step := false } }
    else if traps then { c with dbg := { c.dbg with step := false, pend := 3 } }
    else { c with dbg := { c.dbg with step := false, halted := true, why := 3 } }
  (s.modRod (rodOf core) fun r => { r with clk := { r.clk with total := r.clk.total + w } }).endTurn core w

/-- The bundle at a core's program counter issues. -/
def State.issue (s : State) (core : Nat) (ws : List (BitVec 32)) (is : List Instr) : Out :=
  let s := s.chargeIssue core (s.core core).arch.pc ws.length
  (s.countCycle core causeIssued).andThen fun s =>
    (runSlots (slotOrder is.zipIdx) (s.openBundle ws.length)).andThen fun s =>
      .next (s.closeBundle core (bundleWeight ws))

/-- Would a weight pass the rod's grant (R216)? -/
def State.passesGrant (s : State) (core w : Nat) : Bool :=
  let k := (s.rod (rodOf core)).clk
  decide (w > 0) && decide (k.total + w > grantUnits k.grant)

/-- Has every KLAUNCH at issue on a core been answered? -/
def State.answered (s : State) (core : Nat) : Bool := (s.core core).seq.klaunch.all (·.result.isSome)

/-- A bundle that nothing holds and that raises nothing: a KLAUNCH asks (R161), and the bundle stays at issue until the command can be
answered, which is in the cycle in which the bundle issues, behind the slots before it (R116); and the grant is applied. -/
def State.readyTurn (s : State) (core : Nat) (ws : List (BitVec 32)) (is : List Instr) : Out :=
  let q := (s.core core).seq.klaunch
  let go : Out :=
    if s.passesGrant core (bundleWeight ws) then (s.countCycle core causeEnergy).andThen (execStallBundle core)
    else s.issue core ws is
  if !is.any isKlaunchSlot then go
  else if q.isEmpty then
    (runSlots (is.zipIdx.filter fun e => isKlaunchSlot e.1) s).andThen fun s => s.idleTurn core causeToken
  else (s.issue core ws is).andThen fun t => if t.answered core then go else s.idleTurn core causeToken

/-- Rows 8 to 10 of Table 11-1. -/
def State.programTurn (s : State) (core : Nat) : Out :=
  match s.heldEarly with
  | some cause => s.idleTurn core cause
  | none =>
    match s.wordFault with
    | some f => s.faultTurn core f
    | none =>
      let ws := (s.fetchBundle core (s.core core).arch.pc).getD []
      let is := (decodeAll ws).getD []
      match s.heldBy is with
      | some cause => s.idleTurn core cause
      | none =>
        match s.operandFault is with
        | some f => s.faultTurn core f
        | none => s.readyTurn core ws is

/-- The turn of a core in its rod's cycle (R207, R209): its slots read the state as it stands now. -/
def State.coreTurn (s : State) (core : Nat) : Out :=
  let s := if (s.rowCause core).isNone then s.beginUnit core else s
  let s := ({ s with act := core, slot := 0 } : State).modCore core fun c => { c with latch := c.arch }
  match s.rowCause core with
  | some cause => s.idleTurn core cause
  | none =>
    let s := s.startFetch core
    if (s.rod (rodOf core)).clk.fill.getD (core % 4) false then
      (s.countCycle core causeFiller).andThen fun s => execFillerBundle core (s.modCore core Core.tickSeq)
    else s.programTurn core

/-! ### Cycles and time (R4, R208, R212) -/

/-- A rod's cycle ends once its four cores have had their turns: the sums take what was counted, a placement cycle passes,
and the next edge is a period on. -/
def State.closeCycle (s : State) (rod : Nat) : State :=
  let r := s.rod rod
  if r.clk.turn ≠ 4 then s
  else
    let run := r.kernel.isSome && r.placeLeft == 0 && r.pm.state == .on && !(coresOf rod).any fun c => (s.core c).restoring
    s.modRod rod fun r => { r with
      placeLeft := if r.pm.state == .on && decide (r.placeLeft > 1) then r.placeLeft - 1 else r.placeLeft,
      clk := { r.clk with
        nextEdge := r.clk.nextEdge + r.clk.period,
        wcyc := if run then r.clk.wcyc + 1 else r.clk.wcyc,
        sums := if run then Vector.zipWith (· + ·) r.clk.sums r.clk.adds else r.clk.sums } }

/-- The next turn of a rod whose cycle is under way. -/
def State.rodTurn (s : State) (rod : Nat) : Out :=
  (s.coreTurn (turnCore rod (s.rod rod).clk)).andThen fun s => .next (s.closeCycle rod)

/-- An edge of a rod's clock: its cores' cycle counters advance and results land (R124, R153). -/
def State.edge (s : State) (rod : Nat) : State :=
  (coresOf rod).foldl (fun (s : State) c => s.modCore c fun co => { co with cyc := co.cyc + 1 }.land)
    ((s.beginResize rod).modRod rod fun r => { r with clk := { r.clk with turn := 5 } })

/-- What happens at each reference tick: the error records of the one before are written (R396), boost permits, access counters, and
writes that every read now sees (R231, R274, R279). -/
def State.tickWork (s : State) : State :=
  let s := if s.errors.records.isEmpty && s.errors.out.isEmpty then s else s.flushRecords
  let s := (List.range 16).foldl (fun (s : State) p => s.permitTick p) s
  let s := if s.pm.crossings.isEmpty && s.pm.notices.isEmpty then s else s.crossings
  if s.past.isEmpty then s else s.agePast

/-- Does a wait of a core end now that other units end: a TKPROM, a BARBW, an RWAIT, an SPUB outside a stage, or an operation that
waits for its place in the order (R287, R297, R304, R306, R312)? -/
def State.waitEnds (s : State) (core : Nat) : Bool :=
  let c := s.core core
  c.seq.promWait.any c.promLands || (s.laterGo core).isSome ||
    c.eng.eng.any fun o => s.barbwEnds core o || (s.rwaitEnds core o).isSome || s.spubEnds core o

/-- The first core with such a wait. -/
def State.waiter (s : State) : Option Nat := (List.range 256).find? s.waitEnds

/-- The waits of a core that end now. -/
def State.settle (s : State) (core : Nat) : State :=
  ((((s.settleProm core).settleBarbw core).settleRwait core).settleSpub core).settleLater core

/-- Is a rod's next clock edge to come by its `nextEdge`? -/
def Rod.waitsEdge (r : Rod) : Bool := r.clocked && r.clk.turn == 4

/-- The moment to which time goes on: the next tick, or an edge before it. -/
def State.nextMoment (s : State) : Nat :=
  s.rods.foldl (fun t r => if r.waitsEdge then Nat.max s.now (Nat.min t r.clk.nextEdge) else t)
    (Nat.max s.now (360 * (s.ticked + 1)))

/-- Time goes on to the next tick or clock edge. -/
def State.advance (s : State) : State :=
  let t := s.nextMoment
  let s := { s with now := t }
  let s := (List.range 64).foldl (fun (s : State) r =>
    if (s.rod r).waitsEdge && decide ((s.rod r).clk.nextEdge ≤ t) then s.edge r else s) s
  if 360 * (s.ticked + 1) ≤ t then ({ s with ticked := s.ticked + 1 } : State).tickWork else s

/-- The first rod whose cycle is under way, and the first whose cycle has begun. -/
def State.midRod (s : State) : Option Nat := (List.range 64).find? fun r => decide ((s.rod r).clk.turn < 4)
/-- The first rod at the beginning of a cycle. -/
def State.newRod (s : State) : Option Nat := (List.range 64).find? fun r => (s.rod r).clk.turn == 5

/-- The next step from outside the machine (log 1). -/
def State.outside (s : State) : Option (Instr × State) := match s.agenda with
  | [] => none
  | i :: rest => some (i, { s with agenda := rest })

/-- What happens at the end of the present tick, where no clock edge in it is to come. -/
def State.tickEnd (s : State) : Option Happening :=
  if s.nextMoment < 360 * (s.ticked + 1) then none else s.endDue

/-- What happens next in a running package: a turn of a cycle under way; a step from outside; a happening that is due; the
beginning of a cycle; the end of a wait; what happens at the end of a tick; or the passing of time. -/
def State.run (s : State) : Out :=
  match s.midRod with
  | some r => s.rodTurn r
  | none => match s.outside with
    | some (i, s) => exec i s
    | none => match s.due with
      | some h => h.run s
      | none => match s.newRod with
        | some r => .next (s.beginCycle r)
        | none => match s.waiter with
          | some c => .next (s.settle c)
          | none => match s.tickEnd with
            | some h => h.run s
            | none => .next s.advance

end Sys2Proof.Machine
end

