-- ==== Sys2Proof/Machine/Load.lean ====
section
/-!
DEFINITION. A program placed from outside the machine (log 17): the context, image and kernel that the host's launch would
leave, with one bundle of code about to issue on core 0.
-/
namespace Sys2Proof.Machine

/-- The words of a bundle that holds one given slot: a NOP closes it where the slot has no stop bit (R115). -/
def bundleOf (w : BitVec 32) : List (BitVec 32) := if w.msb then [w] else [w, 0x87000000#32]

/-- The image of a persistent program (Table 3-1) with some words of code at offset 128. -/
def codeImage (ws : List (BitVec 32)) : Image :=
  let head := (List.range 128).map fun i : Nat =>
    if i = 0x06 then (1 : Byte) else if i = 0x08 then 128 else if i = 0x0C then BitVec.ofNat 8 (4 * ws.length) else 0
  { handle := 0, key := 0, digest := 0, bytes := head ++ ws.flatMap (fun w => toLe 4 w.toNat), addr := 0, refs := 1, tick := 0 }

/-- The kernel of such a program: rod 0, of the context with ASID 0. -/
def codeKernel : Kernel :=
  { num := 1, asid := 0, image := 0, prio := 0, st := .placed, readyTick := 0, order := (0, 0), nrods := 1, dies := 1,
    rods := [0], argVa := 0 }

/-- A core at the first bundle of a program that it holds in its L1, with nothing that holds it. -/
def Core.atCode (c : Core) : Core :=
  ({ c with
    arch := { c.arch with pc := codeAt 0 },
    l1kb := 1024,
    l1 := [],
    l1Wait := [],
    eng := { c.eng with probes := [], aside := [] },
    seq := { c.seq with sleepTo := none, waitw := none, fence := [], klaunch := [], walk := 0, trapSeq := none,
                        pre := .running, fill := none },
    unit := { kernel := some 1, ended := false },
    dbg := { c.dbg with halted := false } } : Core).l1Fill (2 ^ 52 + 128)

/-- A rod that the program's kernel holds, at the beginning of a cycle in which core 0 has the first turn. -/
def Rod.atCode (r : Rod) : Rod :=
  { r with
    kernel := some 1, placeLeft := 0,
    pm := { r.pm with state := .on },
    clk := { r.clk with turn := 0, window := 0, change := none, throt := false, total := 0, grant := 6144,
                        fill := Vector.replicate 4 false } }

/-- The state with a program of one bundle placed on rod 0, whose core 0 has the next turn. -/
def State.withCode (s : State) (ws : List (BitVec 32)) : State :=
  let s := (s.modCore 0 Core.atCode).modRod 0 Rod.atCode
  let s := s.modCtx 0 fun c => { c with live := true, free := false, wdog := 2 ^ 48 - 1 }
  { s with
    work := { s.work with images := codeImage ws :: s.work.images, kernels := codeKernel :: s.work.kernels },
    errors := { s.errors with frozen := false } }

end Sys2Proof.Machine
end

