-- ==== Sys2Proof/Machine/Step.lean ====
section
/-!
DEFINITION. One step of the package, and the state with one instruction about to run.
-/
namespace Sys2Proof.Machine

/-- One step: what happens next. A package machine check has stopped every clock (R393): then the log records are written, and only steps
from outside the machine happen; with none of them the machine stands. -/
def step (s : State) : Host.Outcome State Fault Refusal :=
  if s.errors.frozen then
    if !(s.errors.out ++ s.errors.records).isEmpty then .next s.flushRecords
    else match s.outside with
    | some (i, s) => exec i s
    | none => .fault .packageFrozen
  else s.run

/-- The state with the instruction whose bits are `w` about to be fetched and run by core 0 (log 17). -/
def State.withFetchWord (s : State) (nbits w : Nat) : State := s.withCode (bundleOf (BitVec.ofNat 32 (w % 2 ^ nbits)))

end Sys2Proof.Machine
end

