-- ==== Sys2Proof/Safety.lean ====
section
/-!
DEFINITION. The terms in which claims about the machine are stated: registers once their results in flight have landed, what
an instruction leaves as it was, the canonical form of every memory, and the words of a bundle at a program counter.
-/
namespace Sys2Proof.Machine

/-! ### A core once every result in flight has landed (R124 to R129) -/

/-- The architectural state once every result in flight has landed. -/
def Core.settled (c : Core) : Arch := c.landAll.arch

/-- Scalar register `r` once settled; x0 reads zero (R122). -/
def Core.settledX (c : Core) (r : BitVec 5) : Word := if r = 0 then 0 else c.settled.x.getD r.toNat 0

/-- Tile `t` once settled. -/
def Core.settledTile (c : Core) (t : BitVec 4) : Tile := c.settled.tiles.getD t.toNat {}

/-- Row `r` of tile `t` once settled. -/
def Core.settledRow (c : Core) (t : BitVec 4) (r : Nat) : Row := (c.settledTile t).rows.getD r 0

/-- Is no TCFG of tile `t` in flight? -/
def Core.noReconf (c : Core) (t : BitVec 4) : Bool := !c.arch.pend.any fun e => e.val.reconf t

/-! ### What an instruction leaves as it was -/

/-- Only core `n` of the package may differ. -/
structure OnlyCore (n : Nat) (s t : State) : Prop where
  package : t = { s with cores := t.cores }
  others : ∀ m, m ≠ n → t.core m = s.core m

/-- Only rod `r` of the package may differ. -/
structure OnlyRod (r : Nat) (s t : State) : Prop where
  package : t = { s with rods := t.rods }
  others : ∀ q, q ≠ r → t.rod q = s.rod q

/-- Only panel `p` of the package may differ. -/
structure OnlyPanel (p : Nat) (s t : State) : Prop where
  package : t = { s with panels := t.panels }
  others : ∀ q, q ≠ p → t.panel q = s.panel q

/-- Only die `d` of the package may differ. -/
structure OnlyDie (d : Nat) (s t : State) : Prop where
  package : t = { s with dies := t.dies }
  others : ∀ q, q ≠ d → t.die q = s.die q

/-- Only rod `r` and the panel that it is of may differ. -/
structure OnlyRodPanel (r : Nat) (s t : State) : Prop where
  package : t = { s with rods := t.rods, panels := t.panels }
  rods : ∀ q, q ≠ r → t.rod q = s.rod q
  panels : ∀ p, p ≠ r / 4 → t.panel p = s.panel p

/-- `t` is `s` with one scalar result of the acting core added: `x[xd]` settles to `v`, by cycle `cyc + bound` (R124), and
everything else of the machine is as it was; a write of x0 is discarded (R122). -/
structure XResult (s t : State) (bound : Nat) (xd : BitVec 5) (v : Word) : Prop where
  only : OnlyCore s.act s t
  core : t.me = { s.me with arch := t.me.arch, uid := t.me.uid }
  arch : t.me.settled = { s.me.settled with x := t.me.settled.x }
  value : t.me.settledX xd = if xd = 0 then 0 else v
  frame : ∀ q, q ≠ xd → t.me.settledX q = s.me.settledX q
  due : ∀ e ∈ t.me.arch.pend, e ∈ s.me.arch.pend ∨ e.due = s.me.cyc + bound

/-- As `XResult`, with the flags `fl` raised when the result lands (R43). -/
structure XFlagged (s t : State) (bound : Nat) (xd : BitVec 5) (v : Word) (fl : Flags) : Prop where
  only : OnlyCore s.act s t
  core : t.me = { s.me with arch := t.me.arch, uid := t.me.uid }
  arch : t.me.settled = { s.me.settled with
    x := t.me.settled.x, ctl := { s.me.settled.ctl with fpflags := s.me.settled.ctl.fpflags ||| fl } }
  value : t.me.settledX xd = if xd = 0 then 0 else v
  frame : ∀ q, q ≠ xd → t.me.settledX q = s.me.settledX q
  due : ∀ e ∈ t.me.arch.pend, e ∈ s.me.arch.pend ∨ e.due = s.me.cyc + bound

/-- `t` is `s` with a scalar result of an interlocked writer added (R127): behind an earlier write to `x[xd]` that is in flight, the
register is held until the value has landed; everything else is as for `XResult`. -/
structure XHeld (s t : State) (xd : BitVec 5) (v : Word) : Prop where
  only : OnlyCore s.act s t
  core : t.me = { s.me with arch := t.me.arch, uid := t.me.uid, eng := { s.me.eng with ilk := t.me.eng.ilk } }
  arch : t.me.settled = { s.me.settled with x := t.me.settled.x }
  value : t.me.settledX xd = if xd = 0 then 0 else v
  frame : ∀ q, q ≠ xd → t.me.settledX q = s.me.settledX q
  held : t.me.eng.ilk = if xd ≠ 0 ∧ (∃ e ∈ s.me.arch.pend, ∃ w, e.val = .x xd w)
    then s.me.eng.ilk ++ [⟨s.me.uid, xd, false, true⟩] else s.me.eng.ilk
  due : ∀ e ∈ t.me.arch.pend, e ∈ s.me.arch.pend ∨ e.due = s.me.cyc + 1

/-- The engines of a core after a slot that writes tile `u`: the tile is busy until `till`, and marks that belong to it
belong to none (R128, R361). -/
def Engines.wroteTile (e : Engines) (u : BitVec 4) (till : Nat) : Engines :=
  { e with
    vbusy := e.vbusy ++ [(u, till)],
    resolve := match e.resolve.owner with
      | some (o, _) => if o = u then { e.resolve with owner := none, marks := 0 } else e.resolve
      | none => e.resolve }

/-- `t` is `s` with one row result of the acting core added (R124, R170): the bytes under `mask` of the row that `vd` names
settle to those of `v`, unless the row is padded; the tile is busy until the bound, and `fl` is raised. Every other row,
every configuration and tag, every register and all memory are as they were. `d` is the operand `vd` as the slot sees it, and
`e` what the engines of the core are apart from the busy tile. A row write that a TCFG of the tile in flight may come after is lost
with the other rows (R167), so the row's value is claimed where none is in flight. -/
structure RowResultOn (e : Engines) (d : VOp) (s t : State) (bound : Nat) (vd : BitVec 6) (mask v : Row) (fl : Flags) : Prop where
  only : OnlyCore s.act s t
  core : t.me = { s.me with arch := t.me.arch, uid := t.me.uid, eng := e.wroteTile (vTile vd) (s.me.cyc + bound) }
  arch : t.me.settled = { s.me.settled with
    tiles := t.me.settled.tiles, ctl := { s.me.settled.ctl with fpflags := s.me.settled.ctl.fpflags ||| fl } }
  value : s.me.noReconf (vTile vd) = true → d.idx < d.tile.rowCount → d.idx < 64 →
    t.me.settledRow (vTile vd) d.idx = (s.me.settledRow (vTile vd) d.idx &&& ~~~mask) ||| (v &&& mask)
  padded : d.tile.rowCount ≤ d.idx → t.me.settled.tiles = s.me.settled.tiles
  rows : ∀ u r, (u ≠ vTile vd ∨ r ≠ d.idx) → t.me.settledRow u r = s.me.settledRow u r
  tiles : ∀ u, { t.me.settledTile u with rows := zeroRows } = { s.me.settledTile u with rows := zeroRows }
  due : ∀ p ∈ t.me.arch.pend, p ∈ s.me.arch.pend ∨ p.due ≤ s.me.cyc + bound

/-- A row result of a V slot. -/
abbrev RowResult (s t : State) (bound : Nat) (vd : BitVec 6) (mask v : Row) (fl : Flags) : Prop :=
  RowResultOn s.me.eng (s.rv vd) s t bound vd mask v fl

/-- A row result that is element by element `F`, with the flags of every element (R171). -/
def ElementsResult (s t : State) (bound : Nat) (vd : BitVec 6) (ty : ElemTy) (F : Nat → Nat × Flags) : Prop :=
  ∃ r, RowResult s t bound vd fullMask r (flagsAll ((List.range (countOf ty)).map fun i => (F i).2)) ∧
    ∀ i < countOf ty, rowElem ty r i = (F i).1 % 2 ^ widthOf ty

/-- The mismatch fate of a row result (R170): zeros under `mask` of a configured destination, nothing to an unconfigured
one, and NV. -/
def MismatchFate (s t : State) (bound : Nat) (vd : BitVec 6) (mask : Row) : Prop :=
  RowResult s t bound vd (if (s.rv vd).tile.conf then mask else 0) 0 flagNV

/-- `r` is `(-1)^neg * num / den`, with `num` and `den` nonzero, rounded to nearest in format `f`, an exact tie to the pattern whose
least bit is 0 (R28): within half the spacing of the format at the value, or an infinity from the limit on; and the flags are those of
R29. -/
structure Nearest (f : FFmt) (neg : Bool) (num den : Nat) (r : Nat × Flags) : Prop where
  finite : num * 2 ^ (f.frac + 2) < (2 ^ (f.frac + 2) - 1) * 2 ^ (f.bias + 1) * den →
    ∃ k gap, f.decode r.1 = .fin neg k ∧
      (∃ e, 2 ^ e * den ≤ num * 2 ^ 1024 ∧ num * 2 ^ 1024 < 2 ^ (e + 1) * den ∧ gap = 2 ^ (max e (1025 - f.bias) - f.frac)) ∧
      2 * ((k * 2 ^ 875 * den : Int) - num * 2 ^ 1024).natAbs ≤ gap * den ∧
      (2 * ((k * 2 ^ 875 * den : Int) - num * 2 ^ 1024).natAbs = gap * den → r.1 % 2 = 0) ∧
      r.2 = if k * den = num * 2 ^ 149 then 0
        else if num * 2 ^ (f.bias + f.frac + 1) < (2 ^ (f.frac + 2) - 1) * den then flagNX ||| flagUF else flagNX
  overflow : (2 ^ (f.frac + 2) - 1) * 2 ^ (f.bias + 1) * den ≤ num * 2 ^ (f.frac + 2) →
    f.decode r.1 = .inf neg ∧ r.2 = flagOF ||| flagNX

/-- `r` is the sum of the terms `ts`, exact counts of 2^-298, rounded once to nearest in format `f`, with the special values of R27 and
R172: canonical NaN from a NaN, and with NV from infinities of both signs. -/
structure SumOf (f : FFmt) (ts : List FVal) (r : Nat × Flags) : Prop where
  nan : .nan ∈ ts → r = (f.nan, 0)
  clash : .nan ∉ ts → .inf true ∈ ts → .inf false ∈ ts → r = (f.nan, flagNV)
  inf : ∀ neg, .nan ∉ ts → .inf neg ∈ ts → .inf (!neg) ∉ ts → f.decode r.1 = .inf neg ∧ r.2 = 0
  zero : (∀ t ∈ ts, ∃ b n, t = .fin b n) → (ts.map FVal.toInt).sum = 0 →
    f.decode r.1 = .fin (ts.all FVal.neg) 0 ∧ r.2 = 0
  finite : (∀ t ∈ ts, ∃ b n, t = .fin b n) → (ts.map FVal.toInt).sum ≠ 0 →
    Nearest f (decide ((ts.map FVal.toInt).sum < 0)) (ts.map FVal.toInt).sum.natAbs (2 ^ 298) r

/-- The exact product of two values, of which a finite one counts 2^-298; one of a NaN is NaN. -/
def exactProduct : FVal → FVal → FVal
  | .fin a n, .fin b k => .fin (a != b) (n * k)
  | x, y => if x.isNan || y.isNan then .nan else .inf (x.neg != y.neg)

/-- The types that the matrix engine combines, its products in a sum, and the accumulator's type (Table 10-2). -/
def MTypes (a b : ElemTy) (k : Nat) (acc : ElemTy) : Prop :=
  (k = 32 ∧ acc = .fp32 ∧ a = b ∧ (a = .bf16 ∨ a = .fp16)) ∨ (k = 64 ∧ acc = .fp32 ∧ a = .db8 ∧ b = .db8) ∨
    (k = 128 ∧ acc = .fp32 ∧ a = .db4 ∧ b = .db4) ∨
    (k = 64 ∧ acc = .int32 ∧ (a = .int8 ∨ a = .uint8) ∧ (b = .int8 ∨ b = .uint8))

/-- `r` is the old value and `K` products, exact, rounded once to FP32 or saturated to INT32 (R37 to R39). -/
structure MSum (acc : ElemTy) (old K : Nat) (a b : Nat → FVal) (r : Nat × Flags) : Prop where
  ints : acc = .int32 → ∀ x y : Nat → Int,
    (∀ k < K, a k = .fin (decide (x k < 0)) ((x k).natAbs * 2 ^ 149) ∧ b k = .fin (decide (y k < 0)) ((y k).natAbs * 2 ^ 149)) →
    r = satInt .int32 (intVal .int32 old + ((List.range K).map fun k => x k * y k).sum)
  floats : acc = .fp32 →
    let ts := (FFmt.fp32.decode old).wide :: (List.range K).map fun k => exactProduct (a k) (b k)
    let invalid := (∃ k < K, ((a k).isInf = true ∧ (b k).isZero = true) ∨ ((a k).isZero = true ∧ (b k).isInf = true)) ∨
      (.inf true ∈ ts ∧ .inf false ∈ ts)
    (invalid → r = (FFmt.fp32.nan, flagNV)) ∧ (¬ invalid → SumOf .fp32 ts r)

/-- The value of a matrix operand's element: a block element takes the exponent pair at a scratchpad place, whose bytes read zero beyond the
scratchpad's end (R196). -/
def operandValue (rd : Nat → Byte) (size : Nat) (ty : ElemTy) (code pair : Nat) : FVal :=
  match dbOf ty with
  | some f => dbDecode f code (if pair < size then (rd pair).toNat else 0) (if pair + 1 < size then (rd (pair + 1)).toNat else 0)
  | none => elemVal ty code

/-- Element `(i0, i1)` of a scratchpad last with its exponent plane at `plane`; zero beyond the extents (R52, R196). -/
def scratchElem (rd : Nat → Byte) (size plane : Nat) (l : Last) (i0 i1 : Nat) : FVal :=
  let b := l.width * i0 + 8 * (l.str 1 * i1)
  let bytes := (List.range ((b % 8 + l.width + 7) / 8)).map fun k => rd (l.base + b / 8 + k)
  if i0 < l.ext 0 ∧ i1 < l.ext 1 then
    operandValue rd size l.ty (leNat bytes / 2 ^ (b % 8) % 2 ^ l.width) (plane + 2 * ((i0 + l.ext 0 * i1) / 32))
  else .fin false 0

/-- A(m, k) of MMA, MMAZ and, where `f` is 2, MMAT (R196); rows at or above the tile's row count read zero. -/
def leftElem (rd : Nat → Byte) (size : Nat) (cfg : BitVec 64) (f : Nat) (t : Tile) (K m k : Nat) : FVal :=
  let row := if f = 2 then (if K = 32 then 32 * (mKpos cfg % 2) else 0) + k else m
  let j := mKpos cfg % 4 * K + k
  if t.rowCount ≤ row then .fin false 0
  else if f = 2 then elemVal t.ty (rowElem t.ty (t.rows.getD row 0) m)
  else operandValue rd size t.ty (rowElem t.ty (t.rows.getD row 0) j) (128 * mAexp cfg + 32 * m + 2 * (j / 32))

/-- The scratchpad that a run reads: each granule as it stood at some cycle of the run (R203). -/
def MRun.Reads (r : MRun) (c : Core) (rd : Nat → Byte) : Prop :=
  ∀ g, ∃ m ∈ r.snaps ++ [c.spad], ∀ a, a / 64 = g → rd a = m.read a

/-- `V m n` is what an array operation computes for element `n` of row `m`, with its flags (R199): zero where the row is not used and at a
masked edge (R41), else the sum of the old value and the products of A's row and B's column. -/
def ArraySums (r : MRun) (c : Core) (rd : Nat → Byte) (K : Nat) (used : Nat → Prop) (a : Nat → Nat → FVal) (b : Last)
    (old : Nat → Nat → Nat) (V : Nat → Nat → Nat × Flags) : Prop :=
  ∀ m < 64, ∀ n < 64,
    (¬ used m ∨ 64 - mMmask r.cfg ≤ m ∨ 64 - mNmask r.cfg ≤ n → V m n = (0, 0)) ∧
    (used m → m < 64 - mMmask r.cfg → n < 64 - mNmask r.cfg → MSum r.acc.ty (old m n) K (a m)
      (fun k => scratchElem rd c.spadSize (128 * mBexp r.cfg) b (64 * mNpos r.cfg + n) (mKpos r.cfg * K + k)) (V m n))

/-- The elements of the used rows of a tile are `V`'s; its other rows, and those at or above its row count, are as they were. -/
def RowsAre (t u : Tile) (used : Nat → Prop) (V : Nat → Nat → Nat × Flags) : Prop :=
  ∀ m < 64, (used m → m < t.nrows → ∀ n < 64, rowElem t.ty (u.rows.getD m 0) n = (V m n).1 % 2 ^ 32) ∧
    (¬ used m ∨ t.nrows ≤ m → u.rows.getD m 0 = t.rows.getD m 0)

/-- The flags of all the elements of `V`. -/
def arrayFlags (V : Nat → Nat → Nat × Flags) : Flags :=
  flagsAll ((List.range 64).flatMap fun m => (List.range 64).map fun n => (V m n).2)

/-- `r` is one element of a reduction's result and its flags, from the admitted values `vs` (R331): the NaN rule first; a maximum
(`op` 0) or minimum is one of the values and none is beyond it, −0 ranking below +0; a sum is rounded once, or saturated. -/
structure Reduced (ty : ElemTy) (op : BitVec 2) (vs : List Nat) (r : Nat × Flags) : Prop where
  nan : ty = .fp32 → (∃ v ∈ vs, FFmt.fp32.decode v = .nan) → r = (0x7FC00000, 0)
  sum : ty = .fp32 → op = 2 → (∀ v ∈ vs, FFmt.fp32.decode v ≠ .nan) →
    SumOf .fp32 (vs.map fun v => (FFmt.fp32.decode v).wide) r
  best : vs ≠ [] → ty = .fp32 → op ≠ 2 → (∀ v ∈ vs, FFmt.fp32.decode v ≠ .nan) → r.2 = 0 ∧ r.1 ∈ vs ∧ ∀ v ∈ vs,
    let x := FFmt.fp32.decode r.1
    let y := FFmt.fp32.decode v
    if op = 0 then x.lt y = false ∧ (x.eqv y = true → x.neg = true → y.neg = true)
    else y.lt x = false ∧ (x.eqv y = true → y.neg = true → x.neg = true)
  intSum : ty = .int32 → op = 2 → r = satInt .int32 (vs.map (intVal .int32)).sum
  intBest : vs ≠ [] → ty = .int32 → op ≠ 2 → r.2 = 0 ∧ r.1 ∈ vs ∧ ∀ v ∈ vs,
    if op = 0 then intVal .int32 v ≤ intVal .int32 r.1 else intVal .int32 r.1 ≤ intVal .int32 v

/-- The trailer of a result message (Table 17-9). -/
def trailerBytes (slot : Nat) (gen : BitVec 8) (state : Nat) (arrived missing nansrc mask : BitVec 16) (fl : Flags) : List Byte :=
  toLe 2 slot ++ toLe 1 gen.toNat ++ toLe 1 state ++ toLe 2 arrived.toNat ++ toLe 2 missing.toNat ++ toLe 2 nansrc.toNat ++
    toLe 1 ((List.range 16).filter fun i => mask.getLsbD i).length ++ toLe 1 fl.toNat ++ List.replicate 52 0

/-- `p` is the payload of the results of instance `i` of a slot, released by its timeout where `late` (R331, R332, Table 17-9): the
elements, and a trailer whose NANSRC names the contributors that brought a NaN. -/
def ResultBytes (slot : Nat) (i : RedInst) (late : Bool) (p : List Byte) : Prop :=
  ∃ (rs : List (Nat × Flags)) (nans : BitVec 16), rs.length = i.n ∧
    (∀ k < i.n, Reduced i.ty i.op (i.contribs.map fun c => (c.elems.getD k 0).toNat) (rs.getD k (0, 0))) ∧
    (∀ b < 16, nans.getLsbD b = true ↔ i.ty = .fp32 ∧ ∃ c ∈ i.contribs, c.pkg.toNat = b ∧ ∃ v ∈ c.elems, FFmt.fp32.decode v.toNat = .nan) ∧
    p = (rs.flatMap fun r => toLe 4 r.1) ++ trailerBytes slot i.gen
      ((if nans = 0 then 0 else 1) + if late = true ∧ i.arrived ≠ i.mask then 2 else 0)
      i.arrived (i.mask &&& ~~~i.arrived) nans i.mask (flagsAll (rs.map (·.2)))

/-- The loop buffer after a taken transfer to `target` (R151): a level stays open where its body, and the body of every open
level around it, holds the target; nothing else of it changes. -/
def LevelsAfter (target : Word) (old new : Vector LoopLvl 4) : Prop :=
  ∀ l < 4, ∃ b, new.getD l {} = { old.getD l {} with isOpen := b } ∧
    (b = true ↔ (old.getD l {}).isOpen = true ∧
      ∀ j ≤ l, (old.getD j {}).isOpen = true → (old.getD j {}).start ≤ target ∧ target < (old.getD j {}).after)

/-- `t` is `s` with fetch turned to `target` on the acting core by a taken branch or jump (R120, R151), which links NEXT into
`link` where there is one (R145). -/
structure Transferred (s t : State) (target : Word) (link : Option (BitVec 5)) : Prop where
  only : OnlyCore s.act s t
  core : t.me = { s.me with arch := t.me.arch, uid := t.me.uid, seq := { s.me.seq with redirected := true } }
  arch : t.me.settled = { s.me.settled with pc := target, loops := t.me.settled.loops, x := t.me.settled.x }
  levels : LevelsAfter target s.me.arch.loops t.me.settled.loops
  links : ∀ r, link = some r → t.me.settledX r = if r = 0 then 0 else s.me.seq.next
  frame : ∀ q, link ≠ some q → t.me.settledX q = s.me.settledX q

/-- Fetch that reaches `next` on core `n` stays in its section of a loop record (R55): in privileged mode and in persistent
programs there is none to end. `past` says that it came there by a walk. -/
def State.StaysInSection (s : State) (n : Nat) (next : Word) (past : Bool) : Prop :=
  (s.core n).arch.priv = true ∨ ∀ r, s.recordOf n = some r →
    ((s.core n).unit.sec = 0 → next ≠ codeAt r.ker ∧ (past = true → next < codeAt r.ker)) ∧
    ((s.core n).unit.sec = 1 → next ≠ codeAt r.epi ∧ (past = true → next < codeAt r.epi))

/-- `t` is `s` with core `n` at the entry of the handler of class `cls` (R371 to R373): the return address, cause and detail
saved; privileged mode; the handler's address; the loop buffer, a sleep and the FENCEs held aside (log 19); a pre-emption that is
requested taken after the return (log 29); 24 cycles to pass. Nothing else of the machine changes. -/
structure TrapEntered (n : Nat) (s t : State) (cls : Nat) (detail : BitVec 64) (ret : Word) : Prop where
  only : OnlyCore n s t
  core : t.core n = { s.core n with
    arch := (t.core n).arch, seq := (t.core n).seq, unit := (t.core n).unit, eng := (t.core n).eng }
  saved : (t.core n).arch.ctl = { (s.core n).arch.ctl with
    tepc := ret &&& ~~~3#64,
    tcause := BitVec.ofNat 64 (cls + if cls = 1 ∨ 7 ≤ cls then 16 else 0),
    tdetail := detail }
  mode : (t.core n).arch.priv = true
  handler : (t.core n).arch.pc = ((s.core n).tvec &&& ~~~0xFFF#64) + BitVec.ofNat 64 (64 * cls)
  loops : (t.core n).arch.loops = Vector.replicate 4 {} ∧ (t.core n).seq.heldLoops = (s.core n).arch.loops
  sleep : (t.core n).seq.sleepTo = none ∧ (t.core n).seq.heldSleep = (s.core n).seq.sleepTo
  takes : (t.core n).seq.trapSeq = some (.entry 24 cls detail)
  fences : if cls = 5 ∨ cls = 6 then (t.core n).seq.fence = (s.core n).seq.fence ∧ (t.core n).seq.heldFence = []
    else (t.core n).seq.fence = [] ∧ (t.core n).seq.heldFence = (s.core n).seq.fence
  seqs : (t.core n).seq = { (s.core n).seq with
    redirected := true, heldLoops := (t.core n).seq.heldLoops, sleepTo := none, heldSleep := (t.core n).seq.heldSleep,
    fence := (t.core n).seq.fence, heldFence := (t.core n).seq.heldFence, heldTo := (s.core n).uid,
    preAfter := (t.core n).seq.preAfter, walk := 0, trapSeq := (t.core n).seq.trapSeq }
  later : (t.core n).seq.preAfter = true ↔ (s.core n).seq.preAfter = true ∨ ∃ k, (s.core n).seq.pre = .requested k
  probes : (t.core n).eng = if (s.core n).eng.probes.head?.any (·.faulted) = true
    then { (s.core n).eng with aside := (s.core n).eng.aside ++ (s.core n).eng.probes, probes := [] } else (s.core n).eng
  regs : (t.core n).arch = { (s.core n).arch with
    pc := (t.core n).arch.pc, priv := true, loops := (t.core n).arch.loops, ctl := (t.core n).arch.ctl }
  dog : (t.core n).unit = if cls = 7 then { (s.core n).unit with wdog := 0 } else (s.core n).unit

/-! ### Memory accesses -/

/-- Nothing that the core issued before is still to be performed, and no FENCE or RTICK of it is outstanding: what a class-0
access meets where it is performed at its issue (R280, R283, R287). -/
structure State.Quiet (s : State) : Prop where
  memq : ∀ o ∈ s.me.eng.memq, o.performed = true
  fence : s.me.seq.fence = []
  tickets : s.me.seq.ticketWait = []

/-- Access `o`, number `op` of core `n`, takes its place in the order next: what was issued before it has its place, nothing holds it back
(R280, R283, R284, R287), and its line has no error. A store or an atomic has reached its home slice (R279). -/
structure State.Performs (s : State) (n op : Nat) (o : MemOp) : Prop where
  queued : s.memOp? n op = some o
  others : ∀ e ∈ (s.core n).eng.memq, e.id ≠ op → e.performed = true
  todo : o.performed = false
  free : o.free (s.core n) = true
  fences : s.fencesMet n op = true
  home : o.kind.isLoad = true ∨ o.due ≤ s.tick
  sound : s.errors.retiring = [] ∧ s.errors.planted = [] ∧ s.locPoisoned o.loc = false
  plain : o.mc = []

/-- Byte `a` of memory holds no access count of the page map, which an access that misses the memory-side caches changes (R266, R274). -/
def State.NoCount (s : State) (a : Nat) : Prop := ∀ page < 2 ^ 23, ¬ (s.mapEntry page + 4 ≤ a ∧ a < s.mapEntry page + 8)

/-- No error is planted or armed, and no frame is on its way to a spare (R394, R399). -/
structure State.Calm (s : State) : Prop where
  planted : s.errors.planted = []
  armed : s.errors.errinj.getLsbD 63 = false
  retiring : s.errors.retiring = []

/-- Neither memory nor any memory-side cache holds DRAM line `line` poisoned (R390). -/
structure State.Unpoisoned (s : State) (line : Nat) : Prop where
  dram : line ∉ s.errors.poison
  slices : ∀ n < 64, ∀ l ∈ (s.rod n).slice.lines, l.line = line → l.poison = false

/-- The `n` bytes from intermediate address `ia` on are mapped for writing and lie at `o` in the package's memory, none of them in an entry
of the page map that translates a page, and no line of them is poisoned. -/
structure State.PlainAt (s : State) (ia o n : Nat) : Prop where
  mapped : ∀ i < n, s.iaLoc (ia + i) true = some (.dram (o + i) (ia + i) false)
  apart : ∀ i < n, ∀ page < 2 ^ 23, ¬ (s.mapEntry page ≤ o + i ∧ o + i < s.mapEntry page + 8)
  whole : ∀ i < n, s.Unpoisoned ((o + i) / 128)

/-- Byte `a` of the package's own memory is one of the `n` bytes at place `l`. -/
def Loc.Holds (l : Loc) (n a : Nat) : Prop := l.key ≤ a ∧ a < l.key + n

/-- Place `l` is memory that a store can reach: the package's own or another's, and no byte of the code region or the latency
table. -/
def Loc.Writable (l : Loc) : Prop := (∃ o ia fw, l = .dram o ia fw) ∨ ∃ ia, l = .remote ia

/-- Every register of the acting core, once settled, and its scratchpad are as they were. -/
structure RegsKept (s t : State) : Prop where
  regs : t.me.settled = s.me.settled
  spad : t.me.spad = s.me.spad

/-- `t` is `s` with an engine operation of class `cls` issued by the acting core (R138): a new operation, unpromised, that `kout`
stands for from now on; every other register, once settled, and the scratchpad are as they were. -/
structure EngineIssued (s t : State) (cls : OpClass) (kout : BitVec 4) : Prop where
  regs : t.me.settled = { s.me.settled with
    ops := s.me.settled.ops ++ [{ id := s.me.uid, cls := cls }],
    toks := s.me.settled.toks.setIfInBounds kout.toNat { ops := [s.me.uid] } }
  spad : t.me.spad = s.me.spad
  uid : t.me.uid = s.me.uid + 1

/-- The operation of an engine that the issue adds: it waits for the token `kin` as it stood before the bundle, and keeps its own (R138,
R397). -/
def Waits (s t : State) (kind : EngKind) (kout kin : BitVec 4) : Prop :=
  t.me.eng.eng = s.me.eng.eng ++ [{ id := s.me.uid, kind := kind, kin := s.rdTok kin, kout := kout }]

/-- The elements of a last lie in one run of whole bytes (R52). -/
def Last.Run (l : Last) : Prop := (∀ k, 1 ≤ k → k < 4 → l.ext k = 1) ∧ l.width % 8 = 0

/-- `t` is `s` with operation `i` of the acting core put behind its accesses, to be carried out with `v` and `w` in its place in the order
(R280, R287); a register that it writes is held (R127). -/
structure Deferred (s t : State) (i : Instr) (xd : BitVec 5) (v w : Word) : Prop where
  only : OnlyCore s.act s t
  regs : RegsKept s t
  held : xd ≠ 0 → (⟨s.me.uid, xd, false, false⟩ : Interlock) ∈ t.me.eng.ilk
  queued : ∃ o, t.me.eng.memq = s.me.eng.memq ++ [o] ∧ o.id = s.me.uid ∧ o.kind = .later i v w 0 ∧ o.xd = xd ∧ o.performed = false

/-- Only channel end `i` of the package may differ. -/
structure OnlyChan (i : Nat) (s t : State) : Prop where
  package : t = { s with fabric := { s.fabric with chans := t.fabric.chans } }
  others : ∀ j, j ≠ i → t.chan j = s.chan j

/-- `t` is `s` with operation `op` of core `n` refused for a reason: it has left its engine (Table 13-6). -/
def OpRefused (n op reason : Nat) (s t : State) : Prop := OnlyCore n s t ∧ t.core n = (s.core n).refuse op reason

/-- An operation of a core is accepted: its promise is `ticks` on, and it completes by then (R255, R256). -/
structure OpAccepted (n op ticks : Nat) (s t : State) : Prop where
  regs : ∀ x, (t.core n).settledX x = (s.core n).settledX x
  eng : ∃ o, t.eng? n op = some o ∧ o.accepted = true ∧ o.acceptTick = s.tick ∧ o.promise = s.tick + ticks ∧
    s.tick < o.aux ∧ o.aux ≤ s.tick + ticks
  token : ∀ p ∈ (t.core n).arch.ops, p.id = op → p.st = .promised ∧ p.promise = some (s.tick + ticks)

/-- An operation of a core has completed: it has left its engine, and its record says when and with which status, MISSED
added where its promise had passed (R256). -/
structure OpCompleted (n op : Nat) (status : BitVec 16) (s t : State) : Prop where
  eng : t.eng? n op = none
  token : ∀ p ∈ (t.core n).arch.ops, p.id = op → p.st = .complete ∧ p.doneTick = s.tick ∧
    (p.status = status ∨ p.status = status ||| 0x0800#16)

/-! ### What happens without being asked -/

/-- The event instruction that a happening inside the package is. -/
inductive Happening.Runs : Happening → Instr → Prop where
  | nopCommand (q : Nat) : Happening.Runs (.nopCommand q) (.nopCommand q)
  | ctxCreate (q : Nat) : Happening.Runs (.ctxCreate q) (.ctxCreate q)
  | ctxDestroy (q : Nat) : Happening.Runs (.ctxDestroy q) (.ctxDestroy q)
  | imgLoad (q : Nat) : Happening.Runs (.imgLoad q) (.imgLoad q)
  | imgUnload (q : Nat) : Happening.Runs (.imgUnload q) (.imgUnload q)
  | launch (q : Nat) : Happening.Runs (.launch q) (.launch q)
  | pipeBind (q : Nat) : Happening.Runs (.pipeBind q) (.pipeBind q)
  | attest (q : Nat) : Happening.Runs (.attest q) (.attest q)
  | priorityAging (k : Nat) : Happening.Runs (.priorityAging k) (.priorityAging k)
  | kernelPlacement : Happening.Runs .kernelPlacement .kernelPlacement
  | quantumExpiry (k : Nat) : Happening.Runs (.quantumExpiry k) (.quantumExpiry k)
  | preemptionPoint (core : Nat) : Happening.Runs (.preemptionPoint core) (.preemptionPoint core)
  | saveComplete (core : Nat) : Happening.Runs (.saveComplete core) (.saveComplete core)
  | placementEnd (rod : Nat) : Happening.Runs (.placementEnd rod) (.placementEnd rod)
  | restoreComplete (core : Nat) : Happening.Runs (.restoreComplete core) (.restoreComplete core)
  | kernelRetire (k : Nat) : Happening.Runs (.kernelRetire k) (.kernelRetire k)
  | finalAccounts (asid : Nat) : Happening.Runs (.finalAccounts asid) (.finalAccounts asid)
  | abacusFlush (core : Nat) : Happening.Runs (.abacusFlush core) (.abacusFlush core)
  | chargeRunClose (core : Nat) : Happening.Runs (.chargeRunClose core) (.chargeRunClose core)
  | windowEnd (rod : Nat) : Happening.Runs (.windowEnd rod) (.windowEnd rod)
  | opChangeBegin (rod : Nat) : Happening.Runs (.opChangeBegin rod) (.opChangeBegin rod)
  | rampEnd (rod : Nat) : Happening.Runs (.rampEnd rod) (.rampEnd rod)
  | relockEnd (rod : Nat) : Happening.Runs (.relockEnd rod) (.relockEnd rod)
  | permitSpent (panel : Nat) : Happening.Runs (.permitSpent panel) (.permitSpent panel)
  | permitEarned (panel : Nat) : Happening.Runs (.permitEarned panel) (.permitEarned panel)
  | boostFallSecondStep (panel : Nat) : Happening.Runs (.boostFallSecondStep panel) (.boostFallSecondStep panel)
  | poolClaim (panel : Nat) : Happening.Runs (.poolClaim panel) (.poolClaim panel)
  | poolGrant (die : Nat) : Happening.Runs (.poolGrant die) (.poolGrant die)
  | poolWithdraw (panel : Nat) : Happening.Runs (.poolWithdraw panel) (.poolWithdraw panel)
  | thermalDwellEnd (panel : Nat) : Happening.Runs (.thermalDwellEnd panel) (.thermalDwellEnd panel)
  | quiesceEnd (rod : Nat) : Happening.Runs (.quiesceEnd rod) (.quiesceEnd rod)
  | saveStateEnd (rod : Nat) : Happening.Runs (.saveStateEnd rod) (.saveStateEnd rod)
  | holdEnd (rod : Nat) : Happening.Runs (.holdEnd rod) (.holdEnd rod)
  | railDownEnd (rod : Nat) : Happening.Runs (.railDownEnd rod) (.railDownEnd rod)
  | inrushAdmit (die : Nat) : Happening.Runs (.inrushAdmit die) (.inrushAdmit die)
  | inrushRampEnd (rod : Nat) : Happening.Runs (.inrushRampEnd rod) (.inrushRampEnd rod)
  | wakeRestoreEnd (rod : Nat) : Happening.Runs (.wakeRestoreEnd rod) (.wakeRestoreEnd rod)
  | fetchFill (core : Nat) : Happening.Runs (.fetchFill core) (.fetchFill core)
  | loadReturn (core : Nat) (op : Nat) : Happening.Runs (.loadReturn core op) (.loadReturn core op)
  | storePerform (core : Nat) (op : Nat) : Happening.Runs (.storePerform core op) (.storePerform core op)
  | copyAccept (core : Nat) (op : Nat) : Happening.Runs (.copyAccept core op) (.copyAccept core op)
  | copyComplete (core : Nat) (op : Nat) : Happening.Runs (.copyComplete core op) (.copyComplete core op)
  | promiseMissed (core : Nat) (op : Nat) : Happening.Runs (.promiseMissed core op) (.promiseMissed core op)
  | stagingResizeComplete (rod : Nat) : Happening.Runs (.stagingResizeComplete rod) (.stagingResizeComplete rod)
  | syncComplete : Happening.Runs .syncComplete .syncComplete
  | probeAccept (core : Nat) : Happening.Runs (.probeAccept core) (.probeAccept core)
  | probeFault (core : Nat) : Happening.Runs (.probeFault core) (.probeFault core)
  | probeComplete (core : Nat) : Happening.Runs (.probeComplete core) (.probeComplete core)
  | matrixOpStart (core : Nat) : Happening.Runs (.matrixOpStart core) (.matrixOpStart core)
  | matrixOpComplete (core : Nat) : Happening.Runs (.matrixOpComplete core) (.matrixOpComplete core)
  | specComplete (core : Nat) : Happening.Runs (.specComplete core) (.specComplete core)
  | barrierArrival (core : Nat) (op : Nat) : Happening.Runs (.barrierArrival core op) (.barrierArrival core op)
  | ticketGrant (core : Nat) : Happening.Runs (.ticketGrant core) (.ticketGrant core)
  | sleepEnd (core : Nat) : Happening.Runs (.sleepEnd core) (.sleepEnd core)
  | waitwEnd (core : Nat) : Happening.Runs (.waitwEnd core) (.waitwEnd core)
  | stageElementLanded (core : Nat) (op : Nat) : Happening.Runs (.stageElementLanded core op) (.stageElementLanded core op)
  | elementPublished (entry : Nat) : Happening.Runs (.elementPublished entry) (.elementPublished entry)
  | creditGrant (peer : Nat) (chan : Nat) : Happening.Runs (.creditGrant peer chan) (.creditGrant peer chan)
  | sendAccept (core : Nat) (op : Nat) : Happening.Runs (.sendAccept core op) (.sendAccept core op)
  | messageArrival (peer : Nat) (chan : Nat) (m : Message) : Happening.Runs (.messageArrival peer chan m) (.messageArrival peer chan m)
  | markerArrival (peer : Nat) (chan : Nat) (gen : BitVec 8) : Happening.Runs (.markerArrival peer chan gen) (.markerArrival peer chan gen)
  | recvPosted (core : Nat) (op : Nat) : Happening.Runs (.recvPosted core op) (.recvPosted core op)
  | recvAccept (core : Nat) (op : Nat) : Happening.Runs (.recvAccept core op) (.recvAccept core op)
  | recvComplete (core : Nat) (op : Nat) : Happening.Runs (.recvComplete core op) (.recvComplete core op)
  | contributionArrival (slot : Nat) (c : Contribution) : Happening.Runs (.contributionArrival slot c) (.contributionArrival slot c)
  | reductionTimeout (slot : Nat) : Happening.Runs (.reductionTimeout slot) (.reductionTimeout slot)
  | sendrAnswer (core : Nat) (op : Nat) : Happening.Runs (.sendrAnswer core op) (.sendrAnswer core op)
  | gateLoadComplete (die : Nat) : Happening.Runs (.gateLoadComplete die) (.gateLoadComplete die)
  | trapEntry (core : Nat) : Happening.Runs (.trapEntry core) (.trapEntry core)
  | debugHalt (core : Nat) : Happening.Runs (.debugHalt core) (.debugHalt core)
  | pageRetirement (frame : Nat) : Happening.Runs (.pageRetirement frame) (.pageRetirement frame)
  | wayQuarantine (slice : Nat) (way : Nat) : Happening.Runs (.wayQuarantine slice way) (.wayQuarantine slice way)
  | sendComplete (core : Nat) (op : Nat) : Happening.Runs (.sendComplete core op) (.sendComplete core op)
  | atomicReturn (core : Nat) (op : Nat) : Happening.Runs (.atomicReturn core op) (.atomicReturn core op)
  | reservedCommand (q : Nat) : Happening.Runs (.reservedCommand q) (.reservedCommand q)
  | engineUnmappedPage (core : Nat) (op : Nat) : Happening.Runs (.engineUnmappedPage core op) (.engineUnmappedPage core op)
  | engineErrorDetection (core : Nat) (op : Nat) (line : Nat) : Happening.Runs (.engineErrorDetection core op line) (.engineErrorDetection core op line)
  | powerSample (watts : Nat) : Happening.Runs (.powerSample watts) (.powerSample watts)
  | thermalReading (panel : Nat) (steps : Nat) : Happening.Runs (.thermalReading panel steps) (.thermalReading panel steps)
  | patrolScrub (line : Nat) : Happening.Runs (.patrolScrub line) (.patrolScrub line)

/-- Core `n` has the turn: a work unit that it is to begin begins, where no row of Table 11-1 charges its cycle (R55), and slots read its
registers as they stand (R116). -/
def State.turnHead (s : State) (n : Nat) : State :=
  let u := if (s.rowCause n).isNone then s.beginUnit n else s
  ({ u with act := n, slot := 0 } : State).modCore n fun c => { c with latch := c.arch }

/-- The state in which the next bundle of core `n` is looked at: its fetch has begun where the L1 misses a line (R207). -/
def State.turnStart (s : State) (n : Nat) : State := (s.turnHead n).startFetch n

/-- The words `ws` at the program counter of core `n`, whose turn it is in rod `r`, decode to `is`, and nothing holds the bundle: no
cause of rows 1 to 6 of Table 11-1, no filler, nothing that holds it, and no exception before it commits (R131). -/
structure State.Ready (s : State) (r n : Nat) (ws : List (BitVec 32)) (is : List Instr) : Prop where
  running : s.errors.frozen = false
  rod : s.midRod = some r
  core : turnCore r (s.rod r).clk = n
  cause : (s.turnHead n).rowCause n = none
  fills : ((s.turnStart n).rod (rodOf n)).clk.fill.getD (n % 4) false = false
  held : (s.turnStart n).heldEarly = none
  legal : (s.turnStart n).wordFault = none
  words : (s.turnStart n).fetchBundle n ((s.turnStart n).core n).arch.pc = some ws
  decoded : decodeAll ws = some is
  free : (s.turnStart n).heldBy is = none
  operands : (s.turnStart n).operandFault is = none

/-- A bundle that nothing holds issues: a KLAUNCH in it has asked and is answered as the bundle issues (R161), and there is room in the
rod's grant (R216). -/
structure State.Issues (s : State) (r n : Nat) (ws : List (BitVec 32)) (is : List Instr) : Prop extends State.Ready s r n ws is where
  klaunch : is.any isKlaunchSlot = true → ((s.turnStart n).core n).seq.klaunch ≠ [] ∧
    ∃ t, (s.turnStart n).issue n ws is = .next t ∧ t.answered n = true
  grant : (s.turnStart n).passesGrant n (bundleWeight ws) = false

/-- What issuing does around the slots `f` of a bundle of the words `ws`: the cycle is charged and counted, the slots act, fetch and
the weight go on, and the rod's cycle ends with its last core (R207, R211, R216, R220, R383). -/
def State.issueAround (s : State) (r n : Nat) (ws : List (BitVec 32)) (f : State → Out) : Out :=
  let u := s.turnStart n
  let charged := (u.chargeIssue n (u.core n).arch.pc ws.length).countCycle n causeIssued
  let acted := charged.andThen fun v => f (v.openBundle ws.length)
  let closed := acted.andThen fun v => .next (v.closeBundle n (bundleWeight ws))
  closed.andThen fun v => .next (v.closeCycle r)

/-! ### Memories (log 9) -/

/-- Every memory of the package is in canonical form: DRAM, each core's scratchpad, those of saved cores, each slice's staging
buffer and each die's gate banks. -/
structure State.MemOk (s : State) : Prop where
  dram : s.dram.wf = true
  spads : ∀ n < 256, (s.core n).spad.wf = true
  saved : ∀ k ∈ s.work.kernels, ∀ c ∈ k.saved, c.spad.wf = true
  staging : ∀ n < 64, (s.rod n).slice.staging.wf = true
  banks : ∀ n < 2, (s.die n).bank0.wf = true ∧ (s.die n).bank1.wf = true

end Sys2Proof.Machine
end

