-- ==== Sys2Proof/Certificates/Slice0/Obligations.lean ====
section
/-!
DEFINITION. The statements about the machine, for the provers.
-/
open Sys2Proof Sys2Proof.Machine

/-! ### Scalar instructions -/

/-- R140, R141, Table 8-1: a register-register slot whose guard is false changes nothing; otherwise it writes F(x[xa], x[xb]) to
x[xd], within its bound (R139), and nothing else. R140, R141: divisions. A quotient is exact, truncated towards zero and
clamped to its range; a zero divisor gives the end of the range by the dividend's sign, or 0; a remainder has the dividend's
sign, and a zero divisor gives the dividend. Table 8-1: the counts of CLZ, CTZ and POPC, each with what characterises it. -/
def Obligations.ScalarRegisterForms : Prop :=
  (∀ (s : State) (pg : BitVec 3) (xd xa xb : BitVec 5), s.act < 256 →
     let a := s.rx xa
     let b := s.rx xb
     let Does := fun (i : Instr) (bound : Nat) (v : Word) =>
       if s.me.rdP pg then ∃ t, exec i s = .next t ∧ XResult s t bound xd v else exec i s = .next s
     Does (.add pg xd xa xb) 1 (a + b) ∧
     Does (.sub pg xd xa xb) 1 (a - b) ∧
     Does (.and pg xd xa xb) 1 (a &&& b) ∧
     Does (.or pg xd xa xb) 1 (a ||| b) ∧
     Does (.xor pg xd xa xb) 1 (a ^^^ b) ∧
     Does (.andn pg xd xa xb) 1 (a &&& ~~~b) ∧
     Does (.sll pg xd xa xb) 1 (if b.toNat ≥ 64 then 0 else a <<< b.toNat) ∧
     Does (.srl pg xd xa xb) 1 (if b.toNat ≥ 64 then 0 else a >>> b.toNat) ∧
     Does (.sra pg xd xa xb) 1
       (if b.toNat ≥ 64 then (if a.msb then BitVec.allOnes 64 else 0) else a.sshiftRight b.toNat) ∧
     Does (.ror pg xd xa xb) 1 (a.rotateRight (b.toNat % 64)) ∧
     Does (.mul pg xd xa xb) 3 (BitVec.ofNat 64 (a.toNat * b.toNat)) ∧
     Does (.mulh pg xd xa xb) 3 (BitVec.ofInt 64 (a.toInt * b.toInt / 2 ^ 64)) ∧
     Does (.mulhu pg xd xa xb) 3 (BitVec.ofNat 64 (a.toNat * b.toNat / 2 ^ 64)) ∧
     Does (.min pg xd xa xb) 1 (if a.toInt ≤ b.toInt then a else b) ∧
     Does (.max pg xd xa xb) 1 (if a.toInt ≤ b.toInt then b else a) ∧
     Does (.minu pg xd xa xb) 1 (if a.toNat ≤ b.toNat then a else b) ∧
     Does (.maxu pg xd xa xb) 1 (if a.toNat ≤ b.toNat then b else a) ∧
     Does (.slt pg xd xa xb) 1 (if a.toInt < b.toInt then 1 else 0) ∧
     Does (.sltu pg xd xa xb) 1 (if a.toNat < b.toNat then 1 else 0) ∧
     Does (.seq pg xd xa xb) 1 (if a = b then 1 else 0)) ∧
  (∀ (s : State) (pg : BitVec 3) (xd xa xb : BitVec 5), s.act < 256 →
     let a := s.rx xa
     let b := s.rx xb
     let Does := fun (i : Instr) (v : Word) =>
       if s.me.rdP pg then ∃ t, exec i s = .next t ∧ XResult s t 24 xd v else exec i s = .next s
     (b ≠ 0 → Does (.div pg xd xa xb) (BitVec.ofInt 64 (min (Int.tdiv a.toInt b.toInt) (2 ^ 63 - 1)))) ∧
     (b ≠ 0 → Does (.divu pg xd xa xb) (BitVec.ofNat 64 (a.toNat / b.toNat))) ∧
     (b ≠ 0 → Does (.rem pg xd xa xb) (BitVec.ofInt 64 (Int.tmod a.toInt b.toInt))) ∧
     (b ≠ 0 → Does (.remu pg xd xa xb) (BitVec.ofNat 64 (a.toNat % b.toNat))) ∧
     (b = 0 → Does (.div pg xd xa xb)
       (if a = 0 then 0 else if a.toInt < 0 then BitVec.ofInt 64 (-2 ^ 63) else BitVec.ofInt 64 (2 ^ 63 - 1))) ∧
     (b = 0 → Does (.divu pg xd xa xb) (if a = 0 then 0 else 0xFFFFFFFFFFFFFFFF)) ∧
     (b = 0 → Does (.rem pg xd xa xb) a) ∧
     (b = 0 → Does (.remu pg xd xa xb) a)) ∧
  (∀ (s : State) (pg : BitVec 3) (xd xa : BitVec 5), s.act < 256 →
     let a := s.rx xa
     let Does := fun (i : Instr) (n : Nat) =>
       if s.me.rdP pg then ∃ t, exec i s = .next t ∧ XResult s t 1 xd (BitVec.ofNat 64 n) else exec i s = .next s
     (∃ n, Does (.clz pg xd xa) n ∧ n ≤ 64 ∧ (∀ i < n, a.getLsbD (63 - i) = false) ∧ (n < 64 → a.getLsbD (63 - n) = true)) ∧
     (∃ n, Does (.ctz pg xd xa) n ∧ n ≤ 64 ∧ (∀ i < n, a.getLsbD i = false) ∧ (n < 64 → a.getLsbD n = true)) ∧
     Does (.popc pg xd xa) ((List.range 64).filter fun i => a.getLsbD i).length)

/-- R142, R143: the immediate group and the upper immediates. -/
def Obligations.Immediates : Prop :=
  ∀ (s : State) (xd xa : BitVec 5) (imm : BitVec 10) (sh : BitVec 6) (up : BitVec 18), s.act < 256 →
    let a := s.rx xa
    let I : Word := imm.signExtend 64
    let U : Word := BitVec.ofInt 64 (up.toInt * 2 ^ 14)
    let Does := fun (i : Instr) (bound : Nat) (v : Word) => ∃ t, exec i s = .next t ∧ XResult s t bound xd v
    Does (.addi xd xa imm) 1 (a + I) ∧
    Does (.andi xd xa imm) 1 (a &&& I) ∧
    Does (.ori xd xa imm) 1 (a ||| I) ∧
    Does (.xori xd xa imm) 1 (a ^^^ I) ∧
    Does (.slli xd xa sh) 1 (a <<< sh.toNat) ∧
    Does (.srli xd xa sh) 1 (a >>> sh.toNat) ∧
    Does (.srai xd xa sh) 1 (a.sshiftRight sh.toNat) ∧
    Does (.slti xd xa imm) 1 (if a.toInt < imm.toInt then 1 else 0) ∧
    Does (.sltui xd xa imm) 1 (if a.toNat < imm.toNat then 1 else 0) ∧
    Does (.muli xd xa imm) 3 (a * I) ∧
    Does (.lui xd up) 1 U ∧
    Does (.auipc xd up) 1 (s.pcOf + U)

/-- R152, R153, R164, Table 8-8: moves, predicates, selection, the cycle counter, the live abacus, whose counts stand as they
were before the cycle of the issuing bundle with its `width` slots, and NOP. R122: x0 reads zero and p0 reads true, whatever
was written. -/
def Obligations.MovesAndPredicates : Prop :=
  (∀ (s : State) (xd xa xb : BitVec 5) (ar : BitVec 4) (cr : BitVec 2) (pd pa pb : BitVec 3) (cause : BitVec 4), s.act < 256 →
     let X := fun (i : Instr) (v : Word) => ∃ t, exec i s = .next t ∧ XResult s t 1 xd v
     let width := s.me.seq.width
     let own := if width = 0 then 0 else if cause = 0 then width else if cause = 1 then 8 - width else 0
     let P := fun (i : Instr) (v : Bool) => ∃ t, exec i s = .next t ∧ OnlyCore s.act s t ∧
       t.me = { s.me with arch := { s.me.arch with p := if pd = 0 then s.me.arch.p else s.me.arch.p.setIfInBounds pd.toNat v } }
     (∃ t, exec (.movxa ar xa) s = .next t ∧ OnlyCore s.act s t ∧
       t.me = { s.me with arch := { s.me.arch with a := s.me.arch.a.setIfInBounds ar.toNat (s.rx xa) } }) ∧
     X (.movax xd ar) (s.ra ar) ∧
     (∃ t, exec (.movxc cr xa) s = .next t ∧ OnlyCore s.act s t ∧
       t.me = { s.me with arch := { s.me.arch with
         c := s.me.arch.c.setIfInBounds cr.toNat (BitVec.ofNat 6 ((s.rx xa).toNat % 64)) } }) ∧
     X (.movcx xd cr) (BitVec.ofNat 64 (s.me.rdC cr).toNat) ∧
     P (.pset pd xa) (decide (s.rx xa ≠ 0)) ∧
     P (.pand pd pa pb) (s.me.rdP pa && s.me.rdP pb) ∧
     P (.por pd pa pb) (s.me.rdP pa || s.me.rdP pb) ∧
     P (.pxor pd pa pb) (xor (s.me.rdP pa) (s.me.rdP pb)) ∧
     P (.pnot pd pa) (!s.me.rdP pa) ∧
     X (.sel xd xa xb pd) (if s.me.rdP pd then s.rx xa else s.rx xb) ∧
     X (.rdcyc xd) (BitVec.ofNat 64 s.me.cyc) ∧
     X (.accrd xd cause) (BitVec.ofNat 64 ((s.me.acct.live.getD cause.toNat 0 - own) % 2 ^ 48)) ∧
     exec .nop s = .next s) ∧
  (∀ (c : Core) (n slot : Nat) (v : Word) (b : Bool),
     c.rdX n slot 0 = 0 ∧ c.rdP 0 = true ∧ c.putX 0 v = c ∧ (∀ k, c.putXLate k 0 v = c) ∧ c.putP 0 b = c)

/-- R144, R120, R151: a taken branch turns fetch to PC + 4 × off and closes the levels whose bodies do not hold the target; one
that leaves its section raises ILLEGAL_BUNDLE with reason 5 (R56); one not taken goes on by R120. A branch writes no
register. R145: jumps, with their links; JALR takes its target from x as it was before. A jump that leaves its section
raises ILLEGAL_BUNDLE with reason 5, and links nothing (R56, R130). -/
def Obligations.BranchesAndJumps : Prop :=
  (∀ (s : State) (xa xb : BitVec 5) (pn : BitVec 3) (off : BitVec 11), s.act < 256 →
     let a := s.rx xa
     let b := s.rx xb
     let target := s.pcOf + BitVec.ofInt 64 (4 * off.toInt)
     let Does := fun (i : Instr) (taken : Prop) =>
       (taken → s.leavesSection s.act target = false → ∃ t, exec i s = .next t ∧ Transferred s t target none) ∧
       (taken → s.leavesSection s.act target = true → ∃ t, exec i s = .next t ∧
         TrapEntered s.act s t 2 (BitVec.ofNat 64 (5 * 256 + 2 ^ s.slot)) s.pcOf) ∧
       (¬ taken → exec i s = .next (s.followOn s.act))
     Does (.beq xa xb off) (a = b) ∧ Does (.bne xa xb off) (a ≠ b) ∧
     Does (.blt xa xb off) (a.toInt < b.toInt) ∧ Does (.bge xa xb off) (b.toInt ≤ a.toInt) ∧
     Does (.bltu xa xb off) (a.toNat < b.toNat) ∧ Does (.bgeu xa xb off) (b.toNat ≤ a.toNat) ∧
     Does (.bp pn off) (s.me.rdP pn = true) ∧ Does (.bnp pn off) (s.me.rdP pn = false)) ∧
  (∀ (s : State) (x : BitVec 5) (off : BitVec 17), s.act < 256 →
     let direct := s.pcOf + BitVec.ofInt 64 (4 * off.toInt)
     let indirect := (s.rx x + BitVec.ofInt 64 (4 * off.toInt)) &&& ~~~3#64
     let Does := fun (i : Instr) (target : Word) (link : Option (BitVec 5)) =>
       (s.leavesSection s.act target = false → ∃ t, exec i s = .next t ∧ Transferred s t target link) ∧
       (s.leavesSection s.act target = true → ∃ t, exec i s = .next t ∧
         TrapEntered s.act s t 2 (BitVec.ofNat 64 (5 * 256 + 2 ^ s.slot)) s.pcOf)
     Does (.j off) direct none ∧ Does (.jal x off) direct (some x) ∧
     Does (.jr x off) indirect none ∧ Does (.jalr x off) indirect (some x))

/-- R150: the loop-back at the last bundle of a body. The innermost open level that ends there goes round again while more than
one iteration is left: its count falls, its deltas are added to every address register and cursor, the levels inside close,
and fetch returns to the first bundle of the body. With one iteration left it closes and no delta is applied. R148, R149:
LOOP, where the fetch that follows it ends no section of a loop record (R55): the level and those inside it close; a count
of zero walks past the body in as many cycles as it has bundles; any other count opens the level over the body. LDELTA sets
one entry, LBRK leaves one iteration of an open level, and LCLR clears the entries of its level that no LDELTA of the bundle
has set. -/
def Obligations.Loops : Prop :=
  (∀ (a : Arch) (pc : Word) (l : Nat), l < 4 →
     (a.loops.getD l {}).isOpen = true → (a.loops.getD l {}).last = pc →
     (∀ j < 4, l < j → ¬ ((a.loops.getD j {}).isOpen = true ∧ (a.loops.getD j {}).last = pc)) →
     ((a.loops.getD l {}).rem > 1 →
       let r := a.loopBack pc 4
       r.1 = some (a.loops.getD l {}).start ∧
       (∀ n < 16, r.2.a.getD n 0 = a.a.getD n 0 + (a.loops.getD l {}).deltas.getD n 0) ∧
       (∀ n < 4, (r.2.c.getD n 0).toNat = ((a.c.getD n 0).toNat + ((a.loops.getD l {}).deltas.getD (16 + n) 0).toNat) % 64) ∧
       r.2.loops.getD l {} = { a.loops.getD l {} with rem := (a.loops.getD l {}).rem - 1 } ∧
       (∀ j < 4, l < j → (r.2.loops.getD j {}).isOpen = false) ∧
       (∀ j < l, r.2.loops.getD j {} = a.loops.getD j {}) ∧
       r.2 = { a with a := r.2.a, c := r.2.c, loops := r.2.loops }) ∧
     ((a.loops.getD l {}).rem ≤ 1 →
       a.loopBack pc 4 = ({ a with loops := a.loops.setIfInBounds l { a.loops.getD l {} with isOpen := false } } : Arch).loopBack pc l)) ∧
  (∀ (s : State) (lvl : BitVec 2) (xc : BitVec 5) (len : BitVec 8) (target : DeltaTarget) (imm : BitVec 15), s.act < 256 →
     let n := len.toNat + 1
     let body := s.walkBody s.act n s.me.seq.next
     let g := match target with
       | .addr r => r.toNat
       | .cursor r => 16 + r.toNat
     let lv := s.me.arch.loops.getD lvl.toNat {}
     (s.StaysInSection s.act body.2 true → (s.rx xc).toNat = 0 → ∃ t, exec (.loop lvl xc len) s = .next t ∧ OnlyCore s.act s t ∧
       t.me.arch.pc = body.2 ∧ t.me.seq.walk = n ∧ (∀ j < 4, lvl.toNat ≤ j → (t.me.arch.loops.getD j {}).isOpen = false) ∧
       t.me.arch = { s.me.arch with pc := t.me.arch.pc, loops := t.me.arch.loops }) ∧
     (s.StaysInSection s.act s.me.seq.next false → (s.rx xc).toNat ≠ 0 → ∃ t, exec (.loop lvl xc len) s = .next t ∧ OnlyCore s.act s t ∧
       t.me.arch.pc = s.me.seq.next ∧
       (∃ d, t.me.arch.loops.getD lvl.toNat {} =
         { isOpen := true, rem := (s.rx xc).toNat, start := s.me.seq.next, last := body.1, after := body.2, deltas := d } ∧
         d = lv.deltas) ∧
       (∀ j < 4, lvl.toNat < j → (t.me.arch.loops.getD j {}).isOpen = false) ∧
       t.me.arch = { s.me.arch with pc := t.me.arch.pc, loops := t.me.arch.loops }) ∧
     (∃ t, exec (.ldelta lvl target imm) s = .next t ∧ OnlyCore s.act s t ∧
       t.me.arch = { s.me.arch with loops := t.me.arch.loops } ∧
       (t.me.arch.loops.getD lvl.toNat {}) = { lv with deltas := lv.deltas.setIfInBounds g (imm.signExtend 64) } ∧
       (∀ j < 4, j ≠ lvl.toNat → t.me.arch.loops.getD j {} = s.me.arch.loops.getD j {})) ∧
     (∃ t, exec (.lbrk lvl) s = .next t ∧ OnlyCore s.act s t ∧ t.me = { s.me with arch := t.me.arch } ∧
       t.me.arch = { s.me.arch with loops := t.me.arch.loops } ∧
       (t.me.arch.loops.getD lvl.toNat {}) = (if lv.isOpen then { lv with rem := 1 } else lv) ∧
       (∀ j < 4, j ≠ lvl.toNat → t.me.arch.loops.getD j {} = s.me.arch.loops.getD j {})) ∧
     (∃ t, exec (.lclr lvl) s = .next t ∧ OnlyCore s.act s t ∧ t.me = { s.me with arch := t.me.arch } ∧
       t.me.arch = { s.me.arch with loops := t.me.arch.loops } ∧
       (∀ e < 20, (t.me.arch.loops.getD lvl.toNat {}).deltas.getD e 0 =
         if (lvl.toNat, e) ∈ s.me.seq.bundleDeltas then lv.deltas.getD e 0 else 0) ∧
       (∀ j < 4, j ≠ lvl.toNat → t.me.arch.loops.getD j {} = s.me.arch.loops.getD j {})))

/-- R55, R120, R151: where no taken transfer and no loop-back turns it, fetch goes to NEXT; at KER it ends the prologue, with
the epilogue next where no iteration is to come, and at EPI an iteration of the kernel section, which starts again while
iterations are left, and every loop level closes there. That a section ends where a bundle starts at its end, and not where
one runs past it, is the model's choice of log 20. R155: HALT of a persistent program's core, or of a core that no image
holds, ends its work: every loop level closes, every other register stays, and no bundle follows. R155, R55: HALT of a
kernel's core whose loop record was the last ends its work; where the next record has a trip count that its pipeline can
run, the core goes on at that record's PRO, or at KER where it has no prologue, with its registers as they were. A trip
count that is a launch argument is read from the scratchpad, and while a FENCE of HALT's bundle is not met, or a row of it
has not moved, the start of the record waits for them, with every loop level closed. -/
def Obligations.SectionsAndHalts : Prop :=
  (∀ (s : State) (n : Nat) (next : Word), n < 256 →
     (s.StaysInSection n next false → (s.reach n next false).core n = { s.core n with
       arch := { (s.core n).arch with pc := next }, seq := { (s.core n).seq with redirected := true } }) ∧
     (∀ r, (s.core n).arch.priv = false → s.recordOf n = some r →
       let t := (s.reach n next false).core n
       let closed := ∀ l < 4, t.arch.loops.getD l {} = { (s.core n).arch.loops.getD l {} with isOpen := false }
       ((s.core n).unit.sec = 0 → next = codeAt r.ker → (s.core n).unit.iters ≠ 0 →
         closed ∧ t.unit.sec = 1 ∧ t.unit.iters = (s.core n).unit.iters ∧ t.arch.pc = codeAt r.ker) ∧
       ((s.core n).unit.sec = 0 → next = codeAt r.ker → (s.core n).unit.iters = 0 →
         closed ∧ t.unit.sec = 2 ∧ t.unit.iters = 0 ∧ t.arch.pc = codeAt r.epi) ∧
       ((s.core n).unit.sec = 1 → next = codeAt r.epi → (s.core n).unit.iters > 1 →
         closed ∧ t.unit.sec = 1 ∧ t.unit.iters = (s.core n).unit.iters - 1 ∧ t.arch.pc = codeAt r.ker) ∧
       ((s.core n).unit.sec = 1 → next = codeAt r.epi → (s.core n).unit.iters ≤ 1 →
         closed ∧ t.unit.sec = 2 ∧ t.unit.iters = 0 ∧ t.arch.pc = codeAt r.epi))) ∧
  (∀ (s : State), s.act < 256 → (∀ i, s.imageOf s.act = some i → i.persistent = true) →
     ∃ t, exec .halt s = .next t ∧ OnlyCore s.act s t ∧ t.me.unit.ended = true ∧ t.me.unit.haltPc = s.me.latch.pc ∧
       (∀ l < 4, t.me.arch.loops.getD l {} = { s.me.arch.loops.getD l {} with isOpen := false }) ∧
       t.me.arch = { s.me.arch with loops := t.me.arch.loops } ∧
       t.me = { s.me with arch := t.me.arch, unit := t.me.unit, seq := { s.me.seq with redirected := true } }) ∧
  (∀ (s : State) (i : Image), s.act < 256 → s.imageOf s.act = some i → i.persistent = false →
     let r := s.me.unit.record + 1
     let l := i.loopRec r
     let trip := if l.triparg = true then (if 8 * l.trip + 8 ≤ i.argBytes then leNat (s.me.spad.bytes (8 * l.trip) 8) else 0) else l.trip
     (i.loopCnt ≤ r → ∃ t, exec .halt s = .next t ∧ OnlyCore s.act s t ∧ t.me.unit.ended = true) ∧
     (r < i.loopCnt → (l.triparg = false ∨ s.unitWaits s.act = false) → 0 < l.stages → l.stages ≤ trip →
       ∃ t, exec .halt s = .next t ∧ OnlyCore s.act s t ∧ t.me.unit.ended = false ∧ t.me.unit.record = r ∧
         t.me.unit.iters = trip - (l.stages - 1) ∧
         t.me.arch.pc = codeAt (if l.pro ≠ l.ker then l.pro else l.ker) ∧
         t.me.arch = { s.me.arch with pc := t.me.arch.pc, loops := t.me.arch.loops }) ∧
     (r < i.loopCnt → l.triparg = true → s.unitWaits s.act = true →
       ∃ t, exec .halt s = .next t ∧ OnlyCore s.act s t ∧ t.me.unit.starting = true ∧ t.me.unit.record = s.me.unit.record ∧
         (∀ l < 4, t.me.arch.loops.getD l {} = { s.me.arch.loops.getD l {} with isOpen := false }) ∧
         t.me.arch = { s.me.arch with pc := codeAt l.pro, loops := t.me.arch.loops }))

/-- R371 to R374: taking an exception. In unprivileged mode the classes 1 to 9 enter their handlers; FATAL_ACCESS ends the
context in either mode (R372), and in privileged mode so do the synchronous classes, WATCHDOG, and a MACHINE_CHECK that is
fatal (R374, R392), with the detail in the status entry, bit 63 set where the handler faulted. That an entry holds the
FENCEs of its core aside is the model's choice of log 19, and that it puts off a requested pre-emption to the boundary after
the return that of log 29. -/
def Obligations.TakingATrap : Prop :=
  ∀ (s : State) (n cls : Nat) (detail : BitVec 64) (ret : Word), n < 256 →
    ((s.core n).arch.priv = false → 1 ≤ cls → cls ≤ 9 → TrapEntered n s (s.takeTrap n cls detail ret) cls detail ret) ∧
    (∀ asid < 512, s.asidOf n = some asid → (s.ctx asid).live = true → (s.ctx asid).ending = false →
      (((s.core n).arch.priv = true ∧ 1 ≤ cls ∧ cls ≤ 7) ∨ cls = 0) →
      ((s.takeTrap n cls detail ret).ctx asid).ending = true ∧
      ((s.takeTrap n cls detail ret).status asid).ctxdet =
        (if (s.core n).arch.priv then detail ||| 0x8000000000000000#64 else detail) ∧
      (s.takeTrap n cls detail ret).core n = { s.core n with seq := ((s.takeTrap n cls detail ret).core n).seq })

/-- R156: TRAP and BRK raise their classes after their bundle, with the address that follows by R120 as return address and the
immediate as detail; in privileged mode they end the context (R374). A debugger that is attached takes BRK instead: the core
halts (R384). That they leave their core's FENCEs in force is the model's choice of log 19. R157, R375: RFE in privileged
mode restores the program counter, the mode and the loop buffer, resumes a sleep that the trap interrupted and the probes it
held aside (R272), and takes 24 cycles; after a fatal MACHINE_CHECK the context ends as well, with the detail. That the
FENCEs held aside at the entry are in force again is the model's choice of log 19. R131, R153, R157, R163: RFE, WAITW, and
RDCTL or WRCTL of an index of 0x100 or above raise PRIV in unprivileged mode, with the bundle as return address and the slot
in the mask. -/
def Obligations.TrapsAndReturns : Prop :=
  (∀ (s : State) (imm : BitVec 16), s.act < 256 →
     let u := s.followOn s.act
     (u.me.arch.priv = false → u.me.seq.pendTraps.any (fun p => decide (p.1 < 5)) = false → ∃ t, exec (.trap imm) s = .next t ∧
       TrapEntered s.act u t 5 (imm.zeroExtend 64) u.me.arch.pc) ∧
     (u.me.arch.priv = false → u.me.dbg.attach = false → u.me.seq.pendTraps.any (fun p => decide (p.1 < 6)) = false →
       ∃ t, exec (.brk imm) s = .next t ∧ TrapEntered s.act u t 6 (imm.zeroExtend 64) u.me.arch.pc) ∧
     (∀ asid < 512, u.me.arch.priv = true → u.asidOf s.act = some asid → (u.ctx asid).live = true → (u.ctx asid).ending = false →
       let Ends := fun (i : Instr) => ∃ t, exec i s = .next t ∧ (t.ctx asid).ending = true ∧
         (t.status asid).ctxdet = imm.zeroExtend 64 ||| 0x8000000000000000#64 ∧ t.me = { u.me with seq := t.me.seq }
       Ends (.trap imm) ∧ (u.me.dbg.attach = false → Ends (.brk imm))) ∧
     (u.me.dbg.attach = true → ∃ t, exec (.brk imm) s = .next t ∧ OnlyCore s.act u t ∧
       t.me = { u.me with dbg := { u.me.dbg with halted := true, why := 2 } })) ∧
  (∀ (s : State), s.act < 256 → s.me.latch.priv = true →
     let back := { s.me.arch with pc := s.me.latch.ctl.tepc &&& ~~~3#64, priv := false, loops := s.me.seq.heldLoops }
     (∀ asid < 512, s.me.latch.ctl.tcause.toNat % 16 = 1 → s.me.latch.ctl.tdetail.msb = true → s.asidOf s.act = some asid →
       (s.ctx asid).live = true → (s.ctx asid).ending = false →
       ∃ t, exec .rfe s = .next t ∧ t.me.arch = back ∧ (t.ctx asid).ending = true ∧ (t.status asid).ctxdet = s.me.latch.ctl.tdetail) ∧
     ((s.me.latch.ctl.tcause.toNat % 16 ≠ 1 ∨ s.me.latch.ctl.tdetail.msb = false) →
     ∃ t, exec .rfe s = .next t ∧ OnlyCore s.act s t ∧
       t.me.arch = back ∧
       t.me.seq.sleepTo = s.me.seq.heldSleep ∧ t.me.seq.heldSleep = none ∧
       t.me.seq.fence = s.me.seq.fence ++ s.me.seq.heldFence ∧ t.me.seq.heldFence = [] ∧
       t.me.seq.trapSeq = some (.ret 24) ∧
       t.me.eng = { s.me.eng with probes := s.me.eng.aside ++ s.me.eng.probes, aside := [] } ∧
       t.me = { s.me with arch := t.me.arch, seq := t.me.seq, eng := t.me.eng })) ∧
  (∀ (s : State) (x : BitVec 5) (n : BitVec 9), s.act < 256 → s.me.latch.priv = false → s.me.arch.priv = false →
     let Traps := fun (i : Instr) => ∃ t, exec i s = .next t ∧ TrapEntered s.act s t 3 (BitVec.ofNat 64 (2 ^ s.slot)) s.pcOf
     Traps .rfe ∧ Traps (.waitw x) ∧ (0x100 ≤ n.toNat → Traps (.rdctl x n)) ∧ (0x100 ≤ n.toNat → Traps (.wrctl x n)))

/-- R158, R160, R163: SLEEPU waits until TICK, the 64-bit counter, reaches x[xs], and not at all where it has; OPSEL records a
request that is in force from the next cycle; WAITW in privileged mode waits for a tick or a wake write, and not at all
where one is there; of two in a bundle the later tick holds. R162, R73: YIELD ends the quantum of the kernel that holds the
core, after its bundle, at the next cycle of the core, or earlier where another YIELD has it end before, and changes nothing
else. -/
def Obligations.SleepRequestAndYield : Prop :=
  (∀ (s : State) (xs : BitVec 5) (point : BitVec 3), s.act < 256 →
     let w := (s.rx xs).toNat
     let now := s.tick % 2 ^ 64
     let at' := s.tick - now + w
     (w ≤ now → exec (.sleepu xs) s = .next (s.followOn s.act)) ∧
     (now < w → ∃ t, exec (.sleepu xs) s = .next t ∧ OnlyCore s.act (s.followOn s.act) t ∧
       t.me = { (s.followOn s.act).me with seq := { (s.followOn s.act).me.seq with sleepTo := some at' } }) ∧
     (∃ t, exec (.opsel point) s = .next t ∧ OnlyCore s.act s t ∧
       t.me = { s.me with arch := { s.me.arch with opNext := some point.toNat } }) ∧
     (s.me.latch.priv = true → (s.me.seq.wakeFlag = true ∨ w ≤ now) → ∃ t, exec (.waitw xs) s = .next t ∧
       OnlyCore s.act s t ∧ t.me = { s.me with seq := { s.me.seq with wakeFlag := false } }) ∧
     (s.me.latch.priv = true → s.me.seq.wakeFlag = false → now < w → ∃ t, exec (.waitw xs) s = .next t ∧
       OnlyCore s.act s t ∧
       (s.me.seq.waitw = none → t.me = { s.me with seq := { s.me.seq with waitw := some at' } }) ∧
       (∀ other, s.me.seq.waitw = some other → t.me = { s.me with seq := { s.me.seq with waitw := some (max at' other) } }))) ∧
  (∀ (s : State) (k : Kernel), s.act < 256 → (s.followOn s.act).kernelOf s.act = some k →
     let next := s.now + (s.rod (s.act / 4)).clk.period
     exec .yield s = .next ((s.followOn s.act).modKernel k.num fun q => { q with yielded := some (match k.yielded with
       | some u => min next u
       | none => next) }))

/-- R153, R154, R407, Table 22-4: RDCTL reads the register that an index names, for an index below 0x100 in either mode and for
any index in privileged mode; an index that names no register reads 0. R153, R5, R407: WRCTL completes at every index that
its mode may write; a write of a register that is a plain value changes the bits its access codes allow and nothing else; a
write of a register that is read only, or of an index that names no register, changes nothing. A write of FPFLAGS clears the
bits it sets, with the flags of results in flight that have landed before it (R43, log 11). TVEC is a register of each core
(Table 22-4, log 18). -/
def Obligations.ControlRegisters : Prop :=
  (∀ (s : State) (xd : BitVec 5) (n : BitVec 9), s.act < 256 → (n.toNat < 0x100 ∨ s.me.latch.priv = true) →
     let Reads := fun (v : Word) => ∃ t, exec (.rdctl xd n) s = .next t ∧ XResult s t 1 xd v
     let k := s.me.latch.ctl
     Reads (s.ctlRead n.toNat) ∧
     (n = 0x010 → Reads (BitVec.ofNat 64 s.tick)) ∧
     (n = 0x028 → Reads k.mcfg) ∧
     (n = 0x048 → Reads (k.ftidx.zeroExtend 64)) ∧
     (n = 0x068 → Reads k.predcfg) ∧
     (n = 0x074 → Reads k.errstat) ∧
     (n = 0x100 → Reads s.me.tvec) ∧
     (n = 0x101 → Reads k.tepc) ∧
     (n = 0x102 → Reads k.tcause) ∧
     (n = 0x103 → Reads k.tdetail) ∧
     (∀ i < 4, n.toNat = 0x104 + i → Reads (k.tsv.getD i 0)) ∧
     (n = 0x160 → Reads s.regs.pmbase) ∧
     (n = 0x164 → Reads s.regs.mnptr) ∧
     (n = 0x16A → Reads s.regs.elptr) ∧
     (n = 0x173 → Reads k.pfia) ∧
     (n.toNat ∉ [0x010, 0x020, 0x028, 0x030, 0x031, 0x032, 0x040, 0x041, 0x044, 0x048, 0x049, 0x04A, 0x050, 0x058, 0x059, 0x05A,
       0x05C, 0x060, 0x068, 0x070, 0x074, 0x100, 0x101, 0x102, 0x103, 0x104, 0x105, 0x106, 0x107, 0x108, 0x140, 0x144, 0x145, 0x146,
       0x150, 0x151, 0x152, 0x153, 0x154, 0x160, 0x161, 0x162, 0x163, 0x164, 0x168, 0x169, 0x16A, 0x16B, 0x16C, 0x170, 0x171, 0x172,
       0x173, 0x180, 0x181, 0x190, 0x191, 0x1A0, 0x1A1, 0x1B0, 0x1F0] → Reads 0)) ∧
  (∀ (s : State) (xs : BitVec 5) (n : BitVec 9), s.act < 256 → (n.toNat < 0x100 ∨ s.me.latch.priv = true) →
     let v := s.rx xs
     let Core := fun (f : Ctl → Ctl) => ∃ t, exec (.wrctl xs n) s = .next t ∧ OnlyCore s.act s t ∧
       t.me = { s.me with arch := { s.me.arch with ctl := f s.me.arch.ctl } }
     let Pack := fun (f : Regs → Regs) => ∃ t, exec (.wrctl xs n) s = .next t ∧ t = { s with regs := f s.regs, cores := t.cores } ∧
       ∀ m < 256, t.core m = s.core m
     (∃ t, exec (.wrctl xs n) s = .next t) ∧
     (n = 0x020 → ∃ t, exec (.wrctl xs n) s = .next t ∧ OnlyCore s.act s t ∧
       t.me = { s.me with arch := { s.me.arch with
         pend := t.me.arch.pend, ctl := { s.me.arch.ctl with fpflags := t.me.arch.ctl.fpflags } } } ∧
       t.me.arch.ctl.fpflags &&& v.truncate 6 = 0 ∧
       ((∀ e ∈ s.me.latch.pend, ∀ f, e.val ≠ .flags f false) →
         t.me.arch.pend = s.me.arch.pend ∧ t.me.arch.ctl.fpflags = s.me.arch.ctl.fpflags &&& ~~~(v.truncate 6))) ∧
     (n = 0x048 → Core fun k => { k with ftidx := v.truncate 8 }) ∧
     (n = 0x058 → Core fun k => { k with ringsel := v.truncate 8 }) ∧
     (n = 0x101 → Core fun k => { k with tepc := v &&& ~~~3#64 }) ∧
     (∀ i < 4, n.toNat = 0x104 + i → Core fun k => { k with tsv := k.tsv.setIfInBounds i v }) ∧
     (n = 0x100 → ∃ t, exec (.wrctl xs n) s = .next t ∧ OnlyCore s.act s t ∧ t.me = { s.me with tvec := v &&& ~~~0xFFF#64 }) ∧
     (n = 0x16B → Pack fun r => { r with eccnt := v }) ∧
     (n = 0x180 → Pack fun r => { r with chsel := v &&& 0xFF#64 }) ∧
     (n = 0x145 → exec (.wrctl xs n) s =
       .next { s with power := { s.power with avgw := v.extractLsb' 16 16, peakw := v.truncate 16 } }) ∧
     (n.toNat ∈ [0x010, 0x028, 0x032, 0x040, 0x041, 0x044, 0x049, 0x04A, 0x05A, 0x060, 0x102, 0x103, 0x152, 0x170, 0x171, 0x172, 0x173,
       0x1A1, 0x1F0] → Pack fun r => r) ∧
     (n.toNat ∉ [0x010, 0x020, 0x028, 0x030, 0x031, 0x032, 0x040, 0x041, 0x044, 0x048, 0x049, 0x04A, 0x050, 0x058, 0x059, 0x05A,
       0x05C, 0x060, 0x068, 0x070, 0x074, 0x100, 0x101, 0x102, 0x103, 0x104, 0x105, 0x106, 0x107, 0x108, 0x140, 0x144, 0x145, 0x146,
       0x150, 0x151, 0x152, 0x153, 0x154, 0x160, 0x161, 0x162, 0x163, 0x164, 0x168, 0x169, 0x16A, 0x16B, 0x16C, 0x170, 0x171, 0x172,
       0x173, 0x180, 0x181, 0x190, 0x191, 0x1A0, 0x1A1, 0x1B0, 0x1F0] → Pack fun r => r))

/-! ### Memory accesses -/

/-- R2, log 9: a byte read after a write is the byte written there, every other byte is as it was, and a write keeps the
canonical form of a memory. Equal memories are equal data: two memories in canonical form that read alike at every address
are the same list (log 9). -/
def Obligations.MemoryLaws : Prop :=
  (∀ (m : Mem) (a b : Nat) (v : Byte), m.wf = true →
     (m.write a v).read a = v ∧ (b ≠ a → (m.write a v).read b = m.read b) ∧ (m.write a v).wf = true) ∧
  (∀ m k : Mem, m.wf = true → k.wf = true → (∀ a, m.read a = k.read a) → m = k)

/-- R250, R131: a load or store computes `a[N] + sext(imm9) × n`; a misaligned address, or one that reaches nothing, is a
FATAL_ACCESS at the bundle, with that address as detail, and nothing else happens. -/
def Obligations.AccessFaults : Prop :=
  ∀ (s : State) (cls : BitVec 3) (x : BitVec 5) (ar : BitVec 4) (imm : BitVec 9), s.act < 256 →
    let va := fun n : Nat => s.ra ar + BitVec.ofInt 64 (imm.toInt * n)
    let Faults := fun (i : Instr) (n : Nat) (store : Bool) =>
      ((va n).toNat % n ≠ 0 ∨ s.resolve s.act (va n).toNat n (!store) store (!store) = none) →
        exec i s = .next (s.takeTrap s.act 0 (va n) s.pcOf)
    Faults (.ldbu cls x ar imm) 1 false ∧ Faults (.ldb cls x ar imm) 1 false ∧ Faults (.ldhu cls x ar imm) 2 false ∧
    Faults (.ldh cls x ar imm) 2 false ∧ Faults (.ldwu cls x ar imm) 4 false ∧ Faults (.ldw cls x ar imm) 4 false ∧
    Faults (.ldd cls x ar imm) 8 false ∧
    Faults (.stb cls x ar imm) 1 true ∧ Faults (.sth cls x ar imm) 2 true ∧ Faults (.stw cls x ar imm) 4 true ∧
    Faults (.std cls x ar imm) 8 true

/-- R250, R127, R280: a load that reaches a place is issued: its register is interlocked, and every register keeps its value
until it returns. R274: of all the bytes of memory, a load, which stores nothing, changes none but the access counts in the
page map's words 1, where nothing that the core issued before is still to be performed and no error is planted. -/
def Obligations.Loads : Prop :=
  (∀ (s : State) (cls : BitVec 3) (xd : BitVec 5) (ar : BitVec 4) (imm : BitVec 9), s.act < 256 →
     let Does := fun (i : Instr) (n : Nat) (signed : Bool) => ∀ l, s.ldstLoc n false ar imm = some l →
       ∃ t, exec i s = .next t ∧ RegsKept s t ∧
         (xd ≠ 0 → (⟨s.me.uid, xd, false, false⟩ : Interlock) ∈ t.me.eng.ilk) ∧
         ∃ o ∈ t.me.eng.memq, o.id = s.me.uid ∧ o.kind = .load signed ∧ o.cls = cls.toNat ∧ o.loc = l ∧ o.n = n ∧ o.xd = xd
     Does (.ldbu cls xd ar imm) 1 false ∧ Does (.ldb cls xd ar imm) 1 true ∧
     Does (.ldhu cls xd ar imm) 2 false ∧ Does (.ldh cls xd ar imm) 2 true ∧
     Does (.ldwu cls xd ar imm) 4 false ∧ Does (.ldw cls xd ar imm) 4 true ∧ Does (.ldd cls xd ar imm) 8 false) ∧
  (∀ (s : State) (cls : BitVec 3) (xd : BitVec 5) (ar : BitVec 4) (imm : BitVec 9) (a : Nat),
     s.act < 256 → s.Quiet → s.errors.planted = [] → s.NoCount a →
     ∀ t, (exec (.ldbu cls xd ar imm) s = .next t ∨ exec (.ldb cls xd ar imm) s = .next t ∨ exec (.ldhu cls xd ar imm) s = .next t ∨
       exec (.ldh cls xd ar imm) s = .next t ∨ exec (.ldwu cls xd ar imm) s = .next t ∨ exec (.ldw cls xd ar imm) s = .next t ∨
       exec (.ldd cls xd ar imm) s = .next t) → t.dram.read a = s.dram.read a)

/-- R250, R279: a store that reaches a place is issued with the low bytes of x[xs]; nothing of memory changes before it reaches
its home slice. -/
def Obligations.Stores : Prop :=
  ∀ (s : State) (cls : BitVec 3) (xs : BitVec 5) (ar : BitVec 4) (imm : BitVec 9), s.act < 256 →
    let Does := fun (i : Instr) (n : Nat) => ∀ l, s.ldstLoc n true ar imm = some l → l.Writable ∧
      ∃ t, exec i s = .next t ∧ OnlyCore s.act s t ∧ RegsKept s t ∧
        ∃ o, t.me.eng.memq = s.me.eng.memq ++ [o] ∧ o.id = s.me.uid ∧ o.kind = .store ∧ o.cls = cls.toNat ∧ o.loc = l ∧ o.n = n ∧
          o.data = BitVec.ofNat 64 ((s.rx xs).toNat % 2 ^ (8 * n)) ∧ o.performed = false
    Does (.stb cls xs ar imm) 1 ∧ Does (.sth cls xs ar imm) 2 ∧ Does (.stw cls xs ar imm) 4 ∧ Does (.std cls xs ar imm) 8

/-- R300, R279: an atomic that reaches a place is issued at its address a[N], with its register interlocked; it reads and writes
only at its home slice. -/
def Obligations.Atomics : Prop :=
  ∀ (s : State) (scope : Scope) (xd : BitVec 5) (ar : BitVec 4) (xs : BitVec 5) (dbl : BitVec 1) (ord : BitVec 2), s.act < 256 →
    let n := if dbl = 1 then 8 else 4
    let low := fun r : BitVec 5 => BitVec.ofNat 64 ((s.rx r).toNat % 2 ^ (8 * n))
    let Does := fun (i : Instr) (f : Nat) =>
      ((s.ra ar).toNat % n ≠ 0 ∨ s.resolve s.act (s.ra ar).toNat n true true false = none →
        exec i s = .next (s.takeTrap s.act 0 (s.ra ar) s.pcOf)) ∧
      ∀ l, (s.ra ar).toNat % n = 0 → s.resolve s.act (s.ra ar).toNat n true true false = some l → l.Writable ∧
        ∃ t, exec i s = .next t ∧ OnlyCore s.act s t ∧ RegsKept s t ∧
          (xd ≠ 0 → (⟨s.me.uid, xd, false, false⟩ : Interlock) ∈ t.me.eng.ilk) ∧
          ∃ o, t.me.eng.memq = s.me.eng.memq ++ [o] ∧ o.id = s.me.uid ∧ o.kind = .atomic f (low xd) ∧ o.data = low xs ∧ o.loc = l ∧
            o.n = n ∧ o.xd = xd ∧ o.performed = false ∧ o.waits = (if ord.getLsbD 1 then s.fenceIds s.act scope else []) ∧
            o.acq = ord.getLsbD 0
    Does (.aadd scope xd ar xs dbl ord) 0 ∧ Does (.amax scope xd ar xs dbl ord) 1 ∧ Does (.amin scope xd ar xs dbl ord) 2 ∧
    Does (.amaxu scope xd ar xs dbl ord) 3 ∧ Does (.axchg scope xd ar xs dbl ord) 4 ∧ Does (.acas scope xd ar xs dbl ord) 5 ∧
    Does (.aand scope xd ar xs dbl ord) 6 ∧ Does (.aor scope xd ar xs dbl ord) 7

/-- R250, R279, R280, R300: an access takes its place in the order. A load returns the bytes that stand there, lowest first, or,
for a byte written over less than 2,800 ticks ago by another core, what it held before a write that this core has not seen
(log 34). A store writes its bytes at its address and leaves the queue, and an atomic reads and writes there in one place of
the order; every other byte of memory is as it was, but for access counts. R250, R127, R279, R300: a load or an atomic that
has been performed and whose time has come returns: its register takes the value, sign-extended for LDB, LDH, LDW and the
signed atomics, its interlock ends and it leaves the queue; a store that has been performed leaves it. -/
def Obligations.AccessesReturn : Prop :=
  (∀ (s : State) (n op : Nat) (o : MemOp), n < 256 → s.Performs n op o → s.dram.wf = true →
     (∀ sg, o.kind = .load sg → o.ripe s n = true → o.n ∈ [1, 2, 4, 8] → ∃ t, exec (.loadReturn n op) s = .next t ∧
       t.dram = s.dram ∧ t.memOp? n op = none ∧ ∃ bs : List Byte, bs.length = o.n ∧
         (t.core n).settledX o.xd = (if o.xd = 0 then 0
           else if sg then BitVec.ofInt 64 (BitVec.ofNat (8 * o.n) (leNat bs)).toInt else BitVec.ofNat 64 (leNat bs)) ∧
         ∀ i < o.n, bs.getD i 0 = (s.locBytes o.loc o.n).getD i 0 ∨
           ∃ e ∈ s.past, e.key = o.loc.key + i ∧ (max (s.core n).view s.seen ≤ e.serial ∨ s.wrote ≤ e.serial) ∧ bs.getD i 0 = e.old) ∧
     (o.kind = .store → o.loc.Writable → o.n ≤ 8 → ∃ t, exec (.storePerform n op) s = .next t ∧ t.memOp? n op = none ∧
       (t.core n).settled = (s.core n).settled ∧
       (∀ i < o.n, t.dram.read (o.loc.key + i) = o.data.extractLsb' (8 * i) 8) ∧
       ∀ a, ¬ o.loc.Holds o.n a → s.NoCount a → t.dram.read a = s.dram.read a) ∧
     (∀ f c, o.kind = .atomic f c → o.loc.Writable → o.n ∈ [4, 8] → (∀ i < o.n, s.NoCount (o.loc.key + i)) →
       let m := leNat (s.dram.bytes o.loc.key o.n)
       let v := o.data.toNat
       let sg := fun x : Nat => if x < 2 ^ (8 * o.n - 1) then (x : Int) else (x : Int) - 2 ^ (8 * o.n)
       let new := match f with
         | 0 => (m + v) % 2 ^ (8 * o.n)
         | 1 => if sg m < sg v then v else m
         | 2 => if sg v < sg m then v else m
         | 3 => max m v
         | 4 => v
         | 5 => if m = c.toNat then v else m
         | 6 => m &&& v
         | _ => m ||| v
       v < 2 ^ (8 * o.n) → ∃ t, exec (.atomicReturn n op) s = .next t ∧
         leNat (t.dram.bytes o.loc.key o.n) = new ∧ (∀ a, ¬ o.loc.Holds o.n a → s.NoCount a → t.dram.read a = s.dram.read a) ∧
         ((∃ r, t.memOp? n op = some r ∧ r.performed = true ∧ r.data = BitVec.ofNat 64 m) ∨
           (t.memOp? n op = none ∧ (t.core n).settledX o.xd = (if o.xd = 0 then 0
             else if f = 1 ∨ f = 2 then BitVec.ofInt 64 (BitVec.ofNat (8 * o.n) m).toInt else BitVec.ofNat 64 m))))) ∧
  (∀ (s : State) (n op : Nat) (o : MemOp), n < 256 → s.memOp? n op = some o → o.performed = true → o.ripe s n = true →
     let signed := match o.kind with
       | .load sg => sg
       | .atomic f _ => f == 1 || f == 2
       | _ => false
     let v : Word := if signed then BitVec.ofInt 64 ((BitVec.ofNat (8 * o.n) o.data.toNat).toInt) else o.data
     let Lands := fun (i : Instr) => ∃ t, exec i s = .next t ∧
       (t.core n).settledX o.xd = (if o.xd = 0 then 0 else v) ∧
       (∀ q, q ≠ o.xd → (t.core n).settledX q = (s.core n).settledX q) ∧
       t.memOp? n op = none ∧ ∀ i ∈ (t.core n).eng.ilk, i.id ≠ op
     (o.kind.isLoad = true → o.n ∈ [1, 2, 4, 8] → o.data.toNat < 2 ^ (8 * o.n) → Lands (.loadReturn n op)) ∧
     (o.kind.isAtomic = true → o.n ∈ [4, 8] → o.data.toNat < 2 ^ (8 * o.n) → Lands (.atomicReturn n op)) ∧
     (o.kind.isStore = true → ∃ t, exec (.storePerform n op) s = .next t ∧ t.memOp? n op = none ∧
       (t.core n).settled = (s.core n).settled))

/-- R184, R185, R126: VLD and VST move one row between a tile and the scratchpad, VLDE and VSTE the scale latch; VLDE lands
three cycles on. The address is `a[N] + sext(imm10)` rows of 256 bytes, or units of 32; one that is misaligned or beyond the
scratchpad is a FATAL_ACCESS. Accesses that the core issued before and that can be performed are, first, and where engine
operations of it move bytes those that are on their way take their places (Table 15-5, log 34): `rd` is the machine after
them for a row that is read, `wr` for one that is written. A row that its place in the order holds back waits in the queue,
with what its slot read. -/
def Obligations.ScratchpadRows : Prop :=
  ∀ (s : State) (v : BitVec 6) (ar : BitVec 4) (imm : BitVec 10), s.act < 256 → s.me.spad.wf = true →
    let at' := fun unit : Nat => (s.ra ar + BitVec.ofInt 64 (imm.toInt * unit))
    let e := (at' 256).toNat
    let f := (at' 32).toNat
    let okRow := e % 256 = 0 ∧ e + 256 ≤ s.me.spadSize
    let okSl := f % 16 = 0 ∧ f + 32 ≤ s.me.spadSize
    let Fatal := fun (i : Instr) (va : Word) => exec i s = .next (s.takeTrap s.act 0 va s.pcOf)
    let rd := s.rowMeets false
    let wr := s.rowMeets true
    let turn := fun (u : State) (write : Bool) => u.rowTurn s.act u.me.uid write = true
    let Waits := fun (i : Instr) (u : State) (bound : Nat) => ∃ t, exec i s = .next t ∧ OnlyCore s.act u t ∧ RegsKept u t ∧
      ∃ o, t.me.eng.memq = u.me.eng.memq ++ [o] ∧ (∃ x y r, o.kind = .later i x y r) ∧ o.performed = false ∧ o.dueCyc = u.me.cyc + bound
    (∀ u ∈ [rd, wr], ((∀ o ∈ s.me.eng.memq, o.kind.isLater = false) → RegsKept s u) ∧
      ((∀ o ∈ s.me.eng.memq, o.kind.isLater = false ∧ o.performed = true) → u = s)) ∧
    (okRow → turn rd false → ∃ t, exec (.vld v ar imm) s = .next t ∧
      RowResult rd t 4 v fullMask (BitVec.ofNat 2048 (leNat (rd.me.spad.bytes e 256))) 0) ∧
    (okRow → turn wr true → ∃ t, exec (.vst v ar imm) s = .next t ∧ OnlyCore s.act wr t ∧ t.me.arch = wr.me.arch ∧
      (wr.me.spad.wf = true → ∀ i < 256, t.me.spad.read (e + i) = (wr.rv v).row.extractLsb' (8 * i) 8) ∧
      (wr.me.spad.wf = true → ∀ a, a < e ∨ e + 256 ≤ a → t.me.spad.read a = wr.me.spad.read a)) ∧
    (okSl → turn rd false → ∃ t, exec (.vlde ar imm) s = .next t ∧ OnlyCore s.act rd t ∧
      t.me.settled = { rd.me.settled with sl := BitVec.ofNat 256 (leNat (rd.me.spad.bytes f 32)) } ∧ t.me.spad = rd.me.spad ∧
      (∀ p ∈ t.me.arch.pend, p ∈ rd.me.arch.pend ∨ p.due = rd.me.cyc + 3)) ∧
    (okSl → turn wr true → ∃ t, exec (.vste ar imm) s = .next t ∧ OnlyCore s.act wr t ∧ t.me.arch = wr.me.arch ∧
      (wr.me.spad.wf = true → ∀ i < 32, t.me.spad.read (f + i) = wr.me.latch.sl.extractLsb' (8 * i) 8) ∧
      (wr.me.spad.wf = true → ∀ a, a < f ∨ f + 32 ≤ a → t.me.spad.read a = wr.me.spad.read a)) ∧
    (okRow → ¬ turn rd false → Waits (.vld v ar imm) rd 4) ∧ (okRow → ¬ turn wr true → Waits (.vst v ar imm) wr 0) ∧
    (okSl → ¬ turn rd false → Waits (.vlde ar imm) rd 3) ∧ (okSl → ¬ turn wr true → Waits (.vste ar imm) wr 0) ∧
    (¬ okRow → Fatal (.vld v ar imm) (at' 256) ∧ Fatal (.vst v ar imm) (at' 256)) ∧
    (¬ okSl → Fatal (.vlde ar imm) (at' 32) ∧ Fatal (.vste ar imm) (at' 32))

/-- R159, R283: FENCE is in force from its bundle on, for the operations issued before it; it does nothing else. R161: KLAUNCH
at its bundle's first cycle asks for the launch of the command at a[N], to be answered within 28,000 ticks, by the last of
which at the latest. While it has no answer, the slot does what `.klaunchAccept` does; once it has one, the result is
written to x[xd] with a bound of 1. -/
def Obligations.FencesAndKernelLaunch : Prop :=
  (∀ (s : State) (scope : Scope), s.act < 256 →
     ∃ t, exec (.fence scope) s = .next t ∧ OnlyCore s.act s t ∧
       t.me = { s.me with seq := { s.me.seq with fence := s.me.seq.fence ++ [(scope, s.me.uid)] } }) ∧
  (∀ (s : State) (xd : BitVec 5) (ar : BitVec 4), s.act < 256 →
     let mine := fun u : State => u.me.seq.klaunch.find? (fun k => k.slot == s.slot)
     let Writes := fun (u : State) (v : Word) => ∃ t, exec (.klaunch xd ar) s = .next t ∧ OnlyCore s.act u t ∧
         t.me.settledX xd = (if xd = 0 then 0 else v) ∧ (∀ q, q ≠ xd → t.me.settledX q = u.me.settledX q) ∧
         t.me.settled = { u.me.settled with x := t.me.settled.x } ∧ ∀ k ∈ t.me.seq.klaunch, k.slot ≠ s.slot
     ((∀ k ∈ s.me.seq.klaunch, k.slot ≠ s.slot) → ∃ t, exec (.klaunch xd ar) s = .next t ∧ RegsKept s t ∧
       ∃ k, t.me.seq.klaunch = s.me.seq.klaunch ++ [k] ∧ k.slot = s.slot ∧ k.va = s.ra ar ∧ k.result = none ∧
         s.tick ≤ k.till ∧ k.till < s.tick + 28000 ∧ k.last = s.tick + 28000) ∧
     (∀ k v, mine s = some k → k.result = some v → Writes s v) ∧
     (∀ k u, mine s = some k → k.result = none → exec (.klaunchAccept s.act) s = .next u → u.act = s.act → u.slot = s.slot →
       (∀ e v, mine u = some e → e.result = some v → Writes u v) ∧
       ((∀ e, mine u = some e → e.result = none) → exec (.klaunch xd ar) s = .next u)))

/-! ### Tiles and functions -/

/-- R171, R170, Table 9-1: each element of the destination row is F of the elements of va and vb, of vd's type, with the flags
of every element; operands of other types give the mismatch fate. R25, Table 9-1: on an integer type the arithmetic of
elements is exact and then clamped to the range of the type, with SAT where it was clamped. R172, R27 to R29: on a floating
type the arithmetic of elements is the exact sum, difference, product or fused sum rounded once to nearest; infinity minus
infinity, and zero times infinity where no operand is NaN, give canonical NaN with NV. -/
def Obligations.ElementArithmetic : Prop :=
  (∀ (s : State) (vd va vb : BitVec 6), s.act < 256 →
     let d := s.rv vd
     let a := s.rv va
     let b := s.rv vb
     let ty := d.tile.ty
     let Does := fun (i : Instr) (bound : Nat) (ok : ElemTy → Bool) (F : Nat → Nat → Nat → Nat × Flags) =>
       if d.tile.conf ∧ ok ty ∧ a.tile.isTy ty ∧ b.tile.isTy ty then
         ∃ t, exec i s = .next t ∧
           ElementsResult s t bound vd ty fun i => F (rowElem ty a.row i) (rowElem ty b.row i) (rowElem ty d.row i)
       else ∃ t, exec i s = .next t ∧ MismatchFate s t bound vd fullMask
     Does (.vadd vd va vb) 4 isArithTy (fun x y _ => elAdd ty x y) ∧
     Does (.vsub vd va vb) 4 isArithTy (fun x y _ => elSub ty x y) ∧
     Does (.vmul vd va vb) 4 isArithTy (fun x y _ => elMul ty x y) ∧
     Does (.vfma vd va vb) 6 isArithTy (fun x y z => elFma ty x y z) ∧
     Does (.vmin vd va vb) 4 isArithTy (fun x y _ => elMin ty x y) ∧
     Does (.vmax vd va vb) 4 isArithTy (fun x y _ => elMax ty x y) ∧
     Does (.vshl vd va vb) 4 isIntTy (fun x y _ => (x * 2 ^ (y % widthOf ty), 0)) ∧
     Does (.vshr vd va vb) 4 isIntTy (fun x y _ => (wrapBits (widthOf ty) (intVal ty x / 2 ^ (y % widthOf ty)), 0)) ∧
     Does (.vsel vd va vb) 4 isArithTy (fun x y z => (if elNonzero ty z then x else y, 0)) ∧
     Does (.vcmpeq vd va vb) 4 isArithTy (fun x y _ => (elOne ty ((elemVal ty x).eqv (elemVal ty y)), 0)) ∧
     Does (.vcmplt vd va vb) 4 isArithTy (fun x y _ => (elOne ty ((elemVal ty x).lt (elemVal ty y)), 0)) ∧
     Does (.vcmple vd va vb) 4 isArithTy
       (fun x y _ => (elOne ty ((elemVal ty x).lt (elemVal ty y) || (elemVal ty x).eqv (elemVal ty y)), 0)) ∧
     Does (.vabsd vd va vb) 4 isArithTy (fun x y _ => elAbsd ty x y)) ∧
  (∀ (ty : ElemTy) (x y z : Nat), isIntTy ty = true →
     let lo := intMin ty
     let hi := intMax ty
     let Is := fun (r : Nat × Flags) (v : Int) =>
       r.1 < 2 ^ widthOf ty ∧ intVal ty r.1 = max lo (min hi v) ∧ r.2 = if v < lo ∨ hi < v then flagSAT else 0
     Is (elAdd ty x y) (intVal ty x + intVal ty y) ∧
     Is (elSub ty x y) (intVal ty x - intVal ty y) ∧
     Is (elMul ty x y) (intVal ty x * intVal ty y) ∧
     Is (elFma ty x y z) (intVal ty z + intVal ty x * intVal ty y) ∧
     Is (elAbsd ty x y) ((intVal ty x - intVal ty y).natAbs : Int) ∧
     (x < 2 ^ widthOf ty → y < 2 ^ widthOf ty →
       intVal ty (elMin ty x y).1 = min (intVal ty x) (intVal ty y) ∧ intVal ty (elMax ty x y).1 = max (intVal ty x) (intVal ty y))) ∧
  (∀ (ty : ElemTy) (m : FFmt) (a b d : Nat), fmtOf ty = some m →
     let x := m.decode a
     let y := m.decode b
     let z := m.decode d
     let clash := (x.isInf ∧ y.isZero) ∨ (x.isZero ∧ y.isInf)
     SumOf m [x.wide, y.wide] (elAdd ty a b) ∧
     SumOf m [x.wide, y.flip.wide] (elSub ty a b) ∧
     (clash → elMul ty a b = (m.nan, flagNV) ∧ elFma ty a b d = (m.nan, if z.isNan then 0 else flagNV)) ∧
     (∀ p : FVal, (x.isNan ∨ y.isNan → p = .nan) →
       (∀ s n t k, x = .fin s n → y = .fin t k → p = .fin (s != t) (n * k)) →
       (x.isNan = false → y.isNan = false → x.isInf ∨ y.isInf → p = .inf (x.neg != y.neg)) → ¬ clash →
       SumOf m [p] (elMul ty a b) ∧ SumOf m [z.wide, p] (elFma ty a b d)) ∧
     (elAbsd ty a b).2 = (elSub ty a b).2 ∧ m.decode (elAbsd ty a b).1 = (m.decode (elSub ty a b).1).abs)

/-- R171, R173: the bitwise rows work on raw bytes whatever the types; a row-scalar form takes the low bits of x[xb] as the
second element of every place; VSPLAT writes them everywhere. -/
def Obligations.BitwiseAndScalarRows : Prop :=
  ∀ (s : State) (vd va vb : BitVec 6) (xb : BitVec 5), s.act < 256 →
    let d := s.rv vd
    let a := s.rv va
    let ty := d.tile.ty
    let y := (s.rx xb).toNat % 2 ^ widthOf ty
    let Bits := fun (i : Instr) (v : Row) => ∃ t, exec i s = .next t ∧ RowResult s t 4 vd fullMask v 0
    let Does := fun (i : Instr) (bound : Nat) (F : Nat → Nat → Nat × Flags) =>
      if d.tile.conf ∧ isArithTy ty ∧ a.tile.isTy ty then
        ∃ t, exec i s = .next t ∧ ElementsResult s t bound vd ty fun i => F (rowElem ty a.row i) (rowElem ty d.row i)
      else ∃ t, exec i s = .next t ∧ MismatchFate s t bound vd fullMask
    Bits (.vand vd va vb) (a.row &&& (s.rv vb).row) ∧
    Bits (.vor vd va vb) (a.row ||| (s.rv vb).row) ∧
    Bits (.vxor vd va vb) (a.row ^^^ (s.rv vb).row) ∧
    Does (.vadds vd va xb) 4 (fun x _ => elAdd ty x y) ∧
    Does (.vmuls vd va xb) 4 (fun x _ => elMul ty x y) ∧
    Does (.vfmas vd va xb) 6 (fun x z => elFma ty x y z) ∧
    Does (.vmins vd va xb) 4 (fun x _ => elMin ty x y) ∧
    Does (.vmaxs vd va xb) 4 (fun x _ => elMax ty x y) ∧
    (if d.tile.conf then ∃ t, exec (.vsplat vd xb) s = .next t ∧ ElementsResult s t 4 vd ty fun _ => (y, 0)
     else ∃ t, exec (.vsplat vd xb) s = .next t ∧ MismatchFate s t 4 vd fullMask)

/-- R174, R175, R178, R179: conversions write the segment that the two element sizes and row indices select: VCVT between the
pairs it lists, VQNT to a DB type and VDQNT from one with the pairs of the scale latch; other types give the mismatch fate
over the segment. -/
def Obligations.Conversions : Prop :=
  ∀ (s : State) (vd va : BitVec 6) (ty : ElemTy) (rnd : RMode) (db : DbTy), s.act < 256 →
    let d := s.rv vd
    let a := s.rv va
    let g := (segMask a d).1
    let mask := (segMask a d).2
    let Fate := fun (i : Instr) => ∃ t, exec i s = .next t ∧ MismatchFate s t 4 vd mask
    let Writes := fun (i : Instr) (P : Row → Flags → Prop) => ∃ t r fl, exec i s = .next t ∧ RowResult s t 4 vd mask r fl ∧ P r fl
    (d.tile.isTy ty ∧ a.tile.conf ∧ cvtPair a.tile.ty ty →
      Writes (.vcvt vd va ty rnd) fun r fl =>
        (dbOf a.tile.ty = none → dbOf ty = none →
          let F := fun i => cvtElem a.tile.ty ty rnd (rowElem a.tile.ty a.row (g.src + i))
          fl = flagsAll ((List.range g.n).map fun i => (F i).2) ∧
          ∀ i < g.n, rowElem ty r (g.dst + i) = (F i).1 % 2 ^ widthOf ty)) ∧
    (¬ (d.tile.isTy ty ∧ a.tile.conf ∧ cvtPair a.tile.ty ty) → Fate (.vcvt vd va ty rnd)) ∧
    (∀ m, d.tile.isTy (dbElemTy db) ∧ a.tile.conf → fmtOf a.tile.ty = some m →
      Writes (.vqnt vd va db) fun r _ => ∀ k < g.n / 32, ∀ i < 32,
        let p := slPair s.me.latch.sl ((g.dst + 32 * k) / 32)
        let xs := (List.range 32).map fun i => m.decode (rowElem a.tile.ty a.row (g.src + 32 * k + i))
        rowElem (dbElemTy db) r (g.dst + 32 * k + i) =
          ((dbQuantWith db p.1 p.2 xs).1.getD i 0) % 2 ^ widthOf (dbElemTy db)) ∧
    (¬ (d.tile.isTy (dbElemTy db) ∧ a.tile.conf) ∨ fmtOf a.tile.ty = none → Fate (.vqnt vd va db)) ∧
    (∀ m, a.tile.isTy (dbElemTy db) ∧ d.tile.conf → fmtOf d.tile.ty = some m →
      Writes (.vdqnt vd va db) fun r _ => ∀ i < g.n,
        let p := slPair s.me.latch.sl ((g.src + i) / 32)
        rowElem d.tile.ty r (g.dst + i) =
          (m.encode .rne (dbDecode db (rowElem a.tile.ty a.row (g.src + i)) p.1 p.2)).1 % 2 ^ widthOf d.tile.ty) ∧
    (¬ (a.tile.isTy (dbElemTy db) ∧ d.tile.conf) ∨ fmtOf d.tile.ty = none → Fate (.vdqnt vd va db))

/-- R176, R177, R126: VRND rounds each element to an integral value of its own type, and gives the mismatch fate over the
segment on other types (log 22); VMAXEXP writes the exponent pairs of the blocks of a floating row to the scale latch, three
cycles on, leaving the latch's other bytes, and NV of its mismatch fate lands at the same time. R176, R28: a finite element
of VRND becomes an integral value, chosen by the mode, with NX where it changed; infinities stay and NaN is canonical. -/
def Obligations.RoundAndExponents : Prop :=
  (∀ (s : State) (vd va : BitVec 6) (rnd : RMode) (db : DbTy), s.act < 256 →
     let d := s.rv vd
     let a := s.rv va
     let ty := a.tile.ty
     (a.tile.conf ∧ d.tile.isTy ty ∧ isIntTy ty → ∃ t, exec (.vrnd vd va rnd) s = .next t ∧
       ElementsResult s t 4 vd ty fun i => (rowElem ty a.row i, 0)) ∧
     (∀ m, a.tile.conf ∧ d.tile.isTy ty → fmtOf ty = some m → ∃ t, exec (.vrnd vd va rnd) s = .next t ∧
       ElementsResult s t 4 vd ty fun i => elRnd m rnd (rowElem ty a.row i)) ∧
     (¬ (a.tile.conf ∧ d.tile.isTy ty ∧ isArithTy ty) → ∃ t, exec (.vrnd vd va rnd) s = .next t ∧
       MismatchFate s t 4 vd (segMask a d).2) ∧
     (∀ m, a.tile.conf = true → fmtOf ty = some m → ∃ t, exec (.vmaxexp va db) s = .next t ∧ OnlyCore s.act s t ∧
       t.me.settled = { s.me.settled with sl := t.me.settled.sl } ∧
       (∀ p ∈ t.me.arch.pend, p ∈ s.me.arch.pend ∨ p.due = s.me.cyc + 3) ∧
       ∀ k < countOf ty / 32,
         let g := segOf (countOf ty) (countOf (dbElemTy db)) a.idx 0
         let xs := (List.range 32).map fun i => m.decode (rowElem ty a.row (32 * k + i))
         slPair t.me.settled.sl ((g.dst + 32 * k) / 32) = ((dbExps db xs).1 % 256, (dbExps db xs).2 % 256)) ∧
     (∀ m, a.tile.conf = true → fmtOf ty = some m → ∀ t, exec (.vmaxexp va db) s = .next t → ∀ j < 16,
       (∀ k < countOf ty / 32, j ≠ ((segOf (countOf ty) (countOf (dbElemTy db)) a.idx 0).dst + 32 * k) / 32) →
       slPair t.me.settled.sl j = slPair s.me.settled.sl j) ∧
     ((a.tile.conf = false ∨ fmtOf ty = none) → ∃ t, exec (.vmaxexp va db) s = .next t ∧ OnlyCore s.act s t ∧
       t.me.settled = { s.me.settled with ctl := { s.me.settled.ctl with fpflags := s.me.settled.ctl.fpflags ||| flagNV } } ∧
       ∀ p ∈ t.me.arch.pend, p ∈ s.me.arch.pend ∨ p.due = s.me.cyc + 3)) ∧
  (∀ (m : FFmt) (rnd : RMode) (b : Nat), b < 2 ^ m.width →
     let r := elRnd m rnd b
     (m.decode b = .nan → r = (m.nan, 0)) ∧
     (∀ neg, m.decode b = .inf neg → r = (b, 0)) ∧
     (∀ neg n, m.decode b = .fin neg n → ∃ q, m.decode r.1 = .fin neg (q * 2 ^ 149) ∧
       r.2 = (if q * 2 ^ 149 = n then 0 else flagNX) ∧
       match rnd with
       | .rne => 2 * ((q * 2 ^ 149 : Int) - n).natAbs ≤ 2 ^ 149 ∧ (2 * ((q * 2 ^ 149 : Int) - n).natAbs = 2 ^ 149 → q % 2 = 0)
       | .rtz => q * 2 ^ 149 ≤ n ∧ n < (q + 1) * 2 ^ 149
       | .rdn => if neg then n ≤ q * 2 ^ 149 ∧ q * 2 ^ 149 < n + 2 ^ 149 else q * 2 ^ 149 ≤ n ∧ n < (q + 1) * 2 ^ 149
       | .rup => if neg then q * 2 ^ 149 ≤ n ∧ n < (q + 1) * 2 ^ 149 else n ≤ q * 2 ^ 149 ∧ q * 2 ^ 149 < n + 2 ^ 149))

/-- R180, R181: reductions set every element of the destination row to one value: the clamped sum of an integer row, the FP32
tree sum of a floating one rounded to vd's type, the greatest or least element, or the greatest magnitude. Where an element
is NaN, VRMAX, VRMIN and VRAMAX give canonical NaN; otherwise an element that no other passes. -/
def Obligations.Reductions : Prop :=
  ∀ (s : State) (vd va : BitVec 6), s.act < 256 →
    let d := s.rv vd
    let a := s.rv va
    let ta := a.tile.ty
    let td := d.tile.ty
    let es := (List.range (countOf ta)).map (rowElem ta a.row)
    let Fate := fun (i : Instr) => ∃ t, exec i s = .next t ∧ MismatchFate s t 4 vd fullMask
    let sumTys := a.tile.conf ∧ d.tile.conf ∧ isArithTy ta ∧ (td = ta ∨ (isIntTy ta ∧ td = .int32) ∨ (isFloatTy ta ∧ td = .fp32))
    let sameTys := a.tile.conf ∧ d.tile.isTy ta ∧ isArithTy ta
    let All := fun (i : Instr) (P : Nat → Prop) => ∃ t r v fl, exec i s = .next t ∧ RowResult s t 4 vd fullMask r fl ∧ P v ∧
      ∀ i < countOf td, rowElem td r i = v % 2 ^ widthOf td
    (sumTys → isIntTy ta = true → All (.vrsum vd va) fun v => v = (satInt td ((es.map (intVal ta)).sum)).1) ∧
    (sumTys → ∀ ma md, fmtOf ta = some ma → fmtOf td = some md → All (.vrsum vd va) fun v =>
      v = (md.encode .rne (FFmt.fp32.decode (sumTree (Nat.log2 (countOf ta))
        (es.map fun b => (FFmt.fp32.encode .rne (ma.decode b)).1)).1)).1) ∧
    (¬ sumTys → Fate (.vrsum vd va)) ∧
    (sameTys → isIntTy ta = true →
      All (.vrmax vd va) (fun v => v ∈ es ∧ ∀ e ∈ es, intVal ta e ≤ intVal ta v) ∧
      All (.vrmin vd va) (fun v => v ∈ es ∧ ∀ e ∈ es, intVal ta v ≤ intVal ta e) ∧
      All (.vramax vd va) (fun v => (∃ e ∈ es, intVal ta v = min (intMax ta) ((intVal ta e).natAbs : Int)) ∧
        ∀ e ∈ es, min (intMax ta) ((intVal ta e).natAbs : Int) ≤ intVal ta v)) ∧
    (sameTys → ∀ m, fmtOf ta = some m →
      (es.any (fun e => (m.decode e).isNan) = true →
        All (.vrmax vd va) (fun v => v = m.nan) ∧ All (.vrmin vd va) (fun v => v = m.nan) ∧
        All (.vramax vd va) (fun v => v = m.nan)) ∧
      (es.any (fun e => (m.decode e).isNan) = false →
        All (.vrmax vd va) (fun v => v ∈ es ∧ ∀ e ∈ es, (m.decode v).rankLt (m.decode e) = false) ∧
        All (.vrmin vd va) (fun v => v ∈ es ∧ ∀ e ∈ es, (m.decode e).rankLt (m.decode v) = false) ∧
        All (.vramax vd va) (fun v => (∃ e ∈ es, v = e % m.signBit) ∧
          ∀ e ∈ es, (m.decode v).rankLt (m.decode (e % m.signBit)) = false))) ∧
    (¬ sameTys → Fate (.vrmax vd va) ∧ Fate (.vrmin vd va) ∧ Fate (.vramax vd va))

/-- R182, R183: VPERM takes at each place the element of va that vb names; VCOMPR brings the elements of va whose mask is
nonzero to the front and fills with zeros; VEXT reads one element, extended by the signedness of its type; VINS writes one;
VIOTA writes 0, 1, 2, ... -/
def Obligations.PermutesAndElements : Prop :=
  ∀ (s : State) (vd va vb : BitVec 6) (x xb : BitVec 5), s.act < 256 →
    let d := s.rv vd
    let a := s.rv va
    let b := s.rv vb
    let ta := a.tile.ty
    let tb := b.tile.ty
    let td := d.tile.ty
    let Fate := fun (i : Instr) => ∃ t, exec i s = .next t ∧ MismatchFate s t 4 vd fullMask
    let permOk := a.tile.conf ∧ d.tile.isTy ta ∧ b.tile.conf ∧ isIntTy tb ∧ countOf ta ≤ countOf tb
    let comprOk := a.tile.conf ∧ d.tile.isTy ta ∧ b.tile.conf ∧ countOf ta ≤ countOf tb
    let kept := ((List.range (countOf ta)).filter fun i => maskNonzero tb (rowElem tb b.row i)).map (rowElem ta a.row)
    let n := (s.rx xb).toNat % countOf td
    (permOk → ∃ t, exec (.vperm vd va vb) s = .next t ∧
      ElementsResult s t 4 vd ta fun i => (rowElem ta a.row (rowElem tb b.row i % countOf ta), 0)) ∧
    (¬ permOk → Fate (.vperm vd va vb)) ∧
    (comprOk → ∃ t, exec (.vcompr vd va vb) s = .next t ∧ ElementsResult s t 4 vd ta fun i => (kept.getD i 0, 0)) ∧
    (¬ comprOk → Fate (.vcompr vd va vb)) ∧
    (a.tile.conf = true → ∃ t, exec (.vext x va xb) s = .next t ∧ XResult s t 4 x
      (let e := rowElem ta a.row ((s.rx xb).toNat % countOf ta)
       if ta = .int8 ∨ ta = .int16 ∨ ta = .int32 then BitVec.ofInt 64 (intVal ta e) else BitVec.ofNat 64 e)) ∧
    (a.tile.conf = false → ∃ t, exec (.vext x va xb) s = .next t ∧ XFlagged s t 4 x 0 flagNV) ∧
    (d.tile.conf = true → ∃ t, exec (.vins vd x xb) s = .next t ∧
      ∃ r, RowResult s t 4 vd (elemMask (widthOf td) n 1) r 0 ∧ rowElem td r n = (s.rx x).toNat % 2 ^ widthOf td) ∧
    (d.tile.conf = false → Fate (.vins vd x xb)) ∧
    (d.tile.conf ∧ isIntTy td → ∃ t, exec (.viota vd) s = .next t ∧ ElementsResult s t 4 vd td fun i => (i, 0)) ∧
    (∀ m, d.tile.conf → fmtOf td = some m → ∃ t, exec (.viota vd) s = .next t ∧
      ElementsResult s t 4 vd td fun i => ((m.round .rne false i 1).1, 0)) ∧
    (¬ (d.tile.conf ∧ isArithTy td) → Fate (.viota vd))

/-- R167 to R169: TCFG configures a tile, keeping the rows where it is asked to and the row count and element width are as they
were, and the tags where both configurations are tentative; TZERO clears rows and tags, TMOV copies a tile, each with a
bound of 4; a TMOV onto the same tile keeps it and holds it for as long (R128); TTAG reads the tag of a row. -/
def Obligations.TileConfiguration : Prop :=
  ∀ (s : State) (t td : BitVec 4) (ty : ElemTy) (rows : BitVec 6) (keep tent : BitVec 1) (cr : BitVec 2) (xd : BitVec 5),
    s.act < 256 →
    let old := s.me.rdTile s.act s.slot t 64
    let kept := keep = 1 ∧ old.conf ∧ old.nrows = rows.toNat + 1 ∧ widthOf old.ty = widthOf ty
    let Leaves := fun (i : Instr) (u : BitVec 4) (v : Tile) => ∃ t', exec i s = .next t' ∧ OnlyCore s.act s t' ∧
      t'.me.settledTile u = v ∧ (∀ w, w ≠ u → t'.me.settledTile w = s.me.settledTile w) ∧
      t'.me.settled = { s.me.settled with tiles := t'.me.settled.tiles } ∧
      (∀ p ∈ t'.me.arch.pend, p ∈ s.me.arch.pend ∨ p.due = s.me.cyc + 4)
    (kept → Leaves (.tcfg t ty rows keep tent) t
      ⟨true, ty, rows.toNat + 1, tent == 1, if tent = 1 ∧ old.tent then old.tags else Vector.replicate 64 {},
        (s.me.settledTile t).rows⟩) ∧
    (¬ kept → Leaves (.tcfg t ty rows keep tent) t
      ⟨true, ty, rows.toNat + 1, tent == 1, Vector.replicate 64 {}, Vector.replicate 64 0⟩) ∧
    Leaves (.tzero t) t { old with tags := Vector.replicate 64 {}, rows := Vector.replicate 64 0 } ∧
    (td ≠ t → Leaves (.tmov td t) td old) ∧
    (∃ t', exec (.tmov t t) s = .next t' ∧ OnlyCore s.act s t' ∧
      t'.me = { s.me with eng := { s.me.eng with vbusy := s.me.eng.vbusy ++ [(t, s.me.cyc + 4)] } }) ∧
    (let v := s.me.rdTile s.act s.slot t (s.me.rdC cr).toNat
     let g := v.tags.getD (s.me.rdC cr).toNat {}
     ∃ t', exec (.ttag t cr xd) s = .next t' ∧ XResult s t' 4 xd
      (if v.tent ∧ (s.me.rdC cr).toNat < v.rowCount then
        BitVec.ofNat 64 (g.token.toNat + g.expert.toNat * 2 ^ 12 + g.gen.toNat * 2 ^ 20 + if g.valid then 2 ^ 28 else 0)
       else 0))

/-- R186, R187, Table 9-7: the special functions write FP32 elements with a bound of 16 and keep the unit busy for 4 cycles;
other types give the mismatch fate. Each triple below is an input with the result and the flags that the table, R188 and
R189 fix: NaN, zeros, infinities, the ends of the domains, √4, 2^1, log2 1 and 2. The flags of a row hold those of its
elements, and are them where every element is one of these. -/
def Obligations.SpecialFunctions : Prop :=
  ∀ (s : State) (vd va : BitVec 6), s.act < 256 →
    let d := s.rv vd
    let a := s.rv va
    let eng : Engines := { s.me.eng with sfuFree := s.me.cyc + 4 }
    let Does := fun (i : Instr) (fixed : List (Nat × Nat × Flags)) =>
      (a.tile.isTy .fp32 ∧ d.tile.isTy .fp32 → ∃ t r fl, exec i s = .next t ∧ RowResultOn eng d s t 16 vd fullMask r fl ∧
        (∀ j < 64, ∀ p ∈ (0x7FC00000, 0x7FC00000, 0) :: fixed, rowElem .fp32 a.row j = p.1 →
          rowElem .fp32 r j = p.2.1 ∧ fl &&& p.2.2 = p.2.2) ∧
        ∀ g : Nat → Nat × Nat × Flags, (∀ j < 64, g j ∈ (0x7FC00000, 0x7FC00000, 0) :: fixed ∧ rowElem .fp32 a.row j = (g j).1) →
          fl = flagsAll ((List.range 64).map fun j => (g j).2.2)) ∧
      (¬ (a.tile.isTy .fp32 ∧ d.tile.isTy .fp32) → ∃ t, exec i s = .next t ∧
        RowResultOn eng d s t 16 vd (if d.tile.conf then fullMask else 0) 0 flagNV)
    Does (.frcp vd va) [(0, 0x7F800000, flagDZ), (0x80000000, 0xFF800000, flagDZ), (0x7F800000, 0, 0), (0xFF800000, 0x80000000, 0),
      (0x00200000, 0x7F800000, flagOF ||| flagNX), (0x7E800000, 0x00800000, 0), (0xFE800001, 0x80000000, flagUF ||| flagNX)] ∧
    Does (.frsq vd va) [(0, 0x7F800000, flagDZ), (0x80000000, 0xFF800000, flagDZ), (0x7F800000, 0, 0), (0xBF800000, 0x7FC00000, flagNV),
      (0xFF800000, 0x7FC00000, flagNV)] ∧
    Does (.fsqrt vd va) [(0, 0, 0), (0x80000000, 0x80000000, 0), (0x40800000, 0x40000000, 0), (0x7F800000, 0x7F800000, 0),
      (0xBF800000, 0x7FC00000, flagNV), (0xFF800000, 0x7FC00000, flagNV)] ∧
    Does (.fexp2 vd va) [(0, 0x3F800000, 0), (0x80000000, 0x3F800000, 0), (0x3F800000, 0x40000000, 0), (0xFF800000, 0, 0),
      (0x7F800000, 0x7F800000, 0), (0x43000000, 0x7F800000, flagOF ||| flagNX)] ∧
    Does (.flog2 vd va) [(0, 0xFF800000, flagDZ), (0x80000000, 0xFF800000, flagDZ), (0x3F800000, 0, 0), (0x40000000, 0x3F800000, 0),
      (0x7F800000, 0x7F800000, 0), (0xBF800000, 0x7FC00000, flagNV), (0xFF800000, 0x7FC00000, flagNV)] ∧
    Does (.fexpt vd va) [(0, 0x3F800000, 0), (0x80000000, 0x3F800000, 0), (0xFF800000, 0, flagUF ||| flagNX),
      (0xC2820000, 0, flagUF ||| flagNX), (0x3F800000, 0x7FC00000, flagNV), (0x7F800000, 0x7FC00000, flagNV)] ∧
    Does (.ftanh vd va) [(0, 0, 0), (0x80000000, 0x80000000, 0), (0x7F800000, 0x3F800000, 0), (0xFF800000, 0xBF800000, 0)] ∧
    Does (.fsigm vd va) [(0, 0x3F000000, 0), (0x80000000, 0x3F000000, 0), (0xFF800000, 0, 0), (0x7F800000, 0x3F800000, 0)]

/-- R344 to R346: GTOPK ranks the 128 BF16 elements of va and writes the indices of the first k, and their values in FP32, to a
routing row; GSMAX writes the softmax weights of the valid entries of a routing row in their values' places and keeps the
rest; GHIST adds to each expert's INT16 count the valid entries that name it, clamped at 32,767. Each keeps its unit busy,
lands within 16 cycles, and gives the mismatch fate on other types. R337: the top k of a list of candidates: as many as
there are, none twice, in ranking order, each above all that are left out. A greater number ranks above a lesser, a NaN
below every number, and of equals, or of two NaNs, the lower index. R345: the weights of valid entries: canonical NaN for
each where a value is NaN, and with NV where the largest is infinite; else FEXPT of each value less the largest, over their
sum from the first entry on, each addition rounded in FP32 and the quotient to nearest. -/
def Obligations.GateFunctions : Prop :=
  (∀ (s : State) (vd va : BitVec 6) (km1 : BitVec 3), s.act < 256 →
     let d := s.rv vd
     let a := s.rv va
     let h := s.me.rdHist s.act s.slot vd
     let eng := fun n : Nat => ({ s.me.eng with sfuFree := s.me.cyc + n } : Engines)
     let Fate := fun (i : Instr) (n : Nat) (d : VOp) => ∃ t, exec i s = .next t ∧
       RowResultOn (eng n) d s t 16 vd (if d.tile.conf then fullMask else 0) 0 flagNV
     let Writes := fun (i : Instr) (n : Nat) (P : Row → Prop) => ∃ t r fl, exec i s = .next t ∧
       RowResultOn (eng n) d s t 16 vd fullMask r fl ∧ P r
     let g := fun j : Nat => rowElem .int32 a.row j
     let top := topK (km1.toNat + 1) ((List.range 128).map fun i => FFmt.bf16.decode (rowElem .bf16 a.row i))
     let valid := ((List.range (km1.toNat + 1)).filter fun j => decide (g j < 2 ^ 31)).map fun j => (j, g (8 + j))
     (a.tile.isTy .bf16 ∧ d.tile.isRoute → Writes (.gtopk vd va km1) 8 fun r =>
       (∀ j < 8, rowElem .int32 r j = (top[j]?).getD 0xFFFFFFFF) ∧
       (∀ j < 8, rowElem .fp32 r (8 + j) = match top[j]? with
         | some i => (cvtElem .bf16 .fp32 .rne (rowElem .bf16 a.row i)).1 % 2 ^ 32
         | none => 0) ∧
       ∀ j, 16 ≤ j → j < 64 → rowElem .int32 r j = 0) ∧
     (¬ (a.tile.isTy .bf16 ∧ d.tile.isRoute) → Fate (.gtopk vd va km1) 8 d) ∧
     (a.tile.isRoute ∧ d.tile.isRoute → Writes (.gsmax vd va km1) 4 fun r =>
       (∀ j < 64, (j < 8 ∨ 16 ≤ j) → rowElem .int32 r j = g j) ∧
       ∀ j < 8, rowElem .fp32 r (8 + j) = (((softmax valid).1.find? fun e => e.1 == j).map (·.2)).getD 0 % 2 ^ 32) ∧
     (¬ (a.tile.isRoute ∧ d.tile.isRoute) → Fate (.gsmax vd va km1) 4 d) ∧
     (a.tile.isRoute ∧ h.tile.isTy .int16 → ∃ t mask r fl, exec (.ghist vd va) s = .next t ∧
       RowResultOn (eng 4) h s t 16 vd mask r fl ∧ ∀ e < 128,
         let c := ((List.range 8).filter fun j => decide (g j < 2 ^ 31) && g j % 256 == e).length
         (c = 0 → rowElem .int16 mask e = 0) ∧
         (c ≠ 0 → rowElem .int16 mask e = 0xFFFF ∧
           intVal .int16 (rowElem .int16 r e) = min 32767 (intVal .int16 (rowElem .int16 h.row e) + c))) ∧
     (¬ (a.tile.isRoute ∧ h.tile.isTy .int16) → Fate (.ghist vd va) 4 h)) ∧
  (∀ (k : Nat) (vals : List FVal),
     let w := topK k vals
     let at' := fun i : Nat => (vals[i]?).getD .nan
     let Above := fun i j : Nat => ((at' i).isNan = false ∧ (at' j).isNan = true) ∨ (at' j).lt (at' i) = true ∨
       ((at' i).isNan = (at' j).isNan ∧ (at' i).lt (at' j) = false ∧ (at' j).lt (at' i) = false ∧ i < j)
     w.length = min k vals.length ∧ w.Nodup ∧ (∀ i ∈ w, i < vals.length) ∧ w.Pairwise Above ∧
     ∀ i ∈ w, ∀ j < vals.length, j ∉ w → Above i j) ∧
  (∀ (v : List (Nat × Nat)), v ≠ [] → (∀ e ∈ v, e.2 < 2 ^ 32) →
     let val := fun e : Nat × Nat => FFmt.fp32.decode e.2
     let allNan := v.map fun e => (e.1, 0x7FC00000)
     ((∃ e ∈ v, val e = .nan) → softmax v = (allNan, 0)) ∧
     ((∀ e ∈ v, val e ≠ .nan) → ((∃ e ∈ v, val e = .inf false) ∨ ∀ e ∈ v, val e = .inf true) → softmax v = (allNan, flagNV)) ∧
     ((∀ e ∈ v, val e ≠ .nan ∧ val e ≠ .inf false) → (∃ e ∈ v, val e ≠ .inf true) →
       ∃ top ∈ v, (∀ e ∈ v, (val top).lt (val e) = false) ∧
         let x := fun e : Nat × Nat => fnExpt (BitVec.ofNat 32 (elSub .fp32 e.2 top.2).1)
         let sum := (v.tail.map fun e => (x e).1).foldl (fun acc w => (elAdd .fp32 acc w).1) ((v.head?.map fun e => (x e).1).getD 0)
         (softmax v).1.map (·.1) = v.map (·.1) ∧
         ∀ j (h : j < v.length), ∃ q : Nat × Flags, ((softmax v).1.map (·.2))[j]? = some q.1 ∧ (softmax v).2 &&& q.2 = q.2 ∧
           ∀ n d, FFmt.fp32.decode (x v[j]).1 = .fin false n → FFmt.fp32.decode sum = .fin false d →
             (n = 0 → q = (0, 0)) ∧ (n ≠ 0 → d ≠ 0 → Nearest .fp32 false n d q)))

/-! ### Tokens, engines and synchronisation -/

/-- R138, R253, R302 to R308, R320 to R323, R329, R340, R312: every copy, barrier, ring, fabric and stage operation is issued to
its engine with the values of its registers, waits for its kin, and makes its kout pending; it changes no other register. A
chip barrier is refused at once (R302). R191, R195, R201: an M slot enters the matrix queue behind the others with what it
read at issue, among it the tile of its left operand or index row (R116), and makes its kout pending. R269: PROBE and PROBEW
put a probe behind those that the core has issued, its walk at the first position, with the next command number and the mode
it was issued in, and make kout pending. -/
def Obligations.EngineOperationsIssue : Prop :=
  (∀ (s : State) (da db : BitVec 6) (xs : BitVec 5) (scope : Scope) (n : BitVec 4) (ring : BitVec 8) (kout kin : BitVec 4),
     s.act < 256 →
     let x := s.rx xs
     let Does := fun (i : Instr) (cls : OpClass) (kind : EngKind) =>
       ∃ t, exec i s = .next t ∧ EngineIssued s t cls kout ∧ Waits s t kind kout kin
     Does (.cpy da db kout kin) .other (.copy 0 da db) ∧
     Does (.cpycv da db kout kin) .other (.copy 1 da db) ∧
     Does (.cpyz da db kout kin) .other (.copy 2 da db) ∧
     Does (.cpyl2 da db kout kin) .other (.copy 3 da db) ∧
     Does (.cpypf da kout kin) .other (.copy 4 da 0) ∧
     Does (.cpywb da kout kin) .other (.copy 5 da 0) ∧
     (scope ≠ .chip → Does (.bar scope xs kout kin) .barrier (.bar scope x)) ∧
     Does (.barbw n kout kin) .barrier (.barbw n) ∧
     Does (.rwait ring kout kin) .barrier (.rwait ring) ∧
     Does (.send da xs kout kin) .other (.send false false da x) ∧
     Does (.sendQ da xs kout kin) .other (.send true false da x) ∧
     Does (.sendG da xs kout kin) .other (.send false true da x) ∧
     Does (.sendr da xs kout kin) .other (.sendr da x) ∧
     Does (.recv da xs kout kin) .recv (.recv da x) ∧
     Does (.scons da kout kin) .recv (.scons da) ∧
     Does (.spub da kout kin) .other (.spub da) ∧
     ((∀ o ∈ s.me.arch.ops, o.id ≠ s.me.uid) → ∃ t, exec (.bar .chip xs kout kin) s = .next t ∧
       (∃ o ∈ t.me.arch.ops, o.id = s.me.uid ∧ o.st = .refused ∧ o.status = 10) ∧ ∀ o ∈ t.me.eng.eng, o.id ≠ s.me.uid)) ∧
  (∀ (s : State) (tacc ta : BitVec 4) (v db : BitVec 6) (xs : BitVec 5) (kout kin : BitVec 4), s.act < 256 →
     let Does := fun (i : Instr) (kind : MKind) (left : BitVec 4) => ∃ t, exec i s = .next t ∧ EngineIssued s t .other kout ∧
       t.me.eng.mq = s.me.eng.mq ++ [⟨s.me.uid, kind, s.rdTok kin, s.me.cyc, s.me.latch.tiles.getD left.toNat {}⟩]
     Does (.mma tacc ta db kout kin) (.mma 0 tacc ta db) ta ∧
     Does (.mmaz tacc ta db kout kin) (.mma 1 tacc ta db) ta ∧
     Does (.mmat tacc ta db kout kin) (.mma 2 tacc ta db) ta ∧
     Does (.mmag tacc v db kout kin) (.mmag tacc (s.me.rdC (vCur v)).toNat (vTile v) db) (vTile v) ∧
     Does (.mgset db xs kout kin) (.mgset db (s.rx xs)) 0 ∧
     Does (.mdrain kout kin) .mdrain 0) ∧
  (∀ (s : State) (dl : BitVec 6) (kout kin : BitVec 4), s.act < 256 →
     let Does := fun (i : Instr) (write : Bool) => ∃ t, exec i s = .next t ∧ EngineIssued s t .other kout ∧
       t.me.eng.probeCmd = s.me.eng.probeCmd + 1 ∧
       t.me.eng.probes = s.me.eng.probes ++ [{
         id := s.me.uid, write := write, d := dl, kout := kout, kin := s.rdTok kin, cmd := s.me.eng.probeCmd, priv := s.me.latch.priv }]
     Does (.probe dl kout kin) false ∧ Does (.probew dl kout kin) true)

/-- R296 to R299: TKWAIT, once it issues, and TKTEST of a complete token let the core's reads see every write so far (R281; so
much is log 34), keep its later accesses behind the stores and acquires that come before the newest operation of the token
(Table 15-5), and change nothing else; TKTEST reads a token's state and status; TKPROM reads the promise of a token that has
left state 0, and otherwise holds its register until then; TKJOIN stands for every operation of those of its components that
are not complete, and is refused where TKSET refused a component (log 21); TKSET stands for none and is complete or refused
at once. -/
def Obligations.TokenSlots : Prop :=
  ∀ (s : State) (k ka kb kc kd : BitVec 4) (xd : BitVec 5) (refused : BitVec 1), s.act < 256 →
    let t := s.rdTok k
    let a := s.me.arch
    let sees := fun (u : State) => OnlyCore s.act s u ∧ u.me = { s.me with view := s.wrote, eng := { s.me.eng with
      memq := s.me.eng.memq.map fun o => if o.id < t.newest ∧ (o.kind.isStore = true ∨ o.acq = true) then o.gateFrom s.me.uid false else o } }
    (∃ u, exec (.tkwait k) s = .next u ∧ sees u) ∧
    (∃ u v, exec (.tktest k xd) s = .next u ∧ (if a.tokState t = .complete then sees v else v = s) ∧ XHeld v u xd (BitVec.ofNat 64 ((match a.tokState t with
      | .unpromised => 0 | .promised => 1 | .complete => 2 | .refused => 3) + (if t.join then 4 else 0) +
        (a.tokStatus t).toNat * 2 ^ 16))) ∧
    (a.tokState t = .unpromised → ∃ u, exec (.tkprom k xd) s = .next u ∧ OnlyCore s.act s u ∧ RegsKept s u ∧
      u.me.seq.promWait = s.me.seq.promWait ++ [(xd, t)] ∧
      (xd ≠ 0 → (⟨s.me.uid, xd, false, false⟩ : Interlock) ∈ u.me.eng.ilk)) ∧
    (a.tokState t ≠ .unpromised → ∃ u v, exec (.tkprom k xd) s = .next u ∧
      XHeld { s with fresh := s.fresh + 1 } u xd v ∧
      (a.tokState t = .refused → v = 0) ∧
      (a.tokState t ≠ .refused → a.tokOps t = [] → t.join = false → v = BitVec.ofNat 64 t.tick) ∧
      (∀ o, a.tokState t ≠ .refused → a.tokOps t = [o] → v = BitVec.ofNat 64 (o.promise.getD o.doneTick))) ∧
    (∃ u j, exec (.tkjoin kd ka kb kc) s = .next u ∧ OnlyCore s.act s u ∧
      u.me = { s.me with arch := { a with toks := a.toks.setIfInBounds kd.toNat j } } ∧
      j.join = true ∧ j.tick = s.tick ∧
      (j.refused = true ↔ ∃ c ∈ [ka, kb, kc], (s.rdTok c).refused = true) ∧
      (∀ i, i ∈ j.ops ↔ ∃ c ∈ [ka, kb, kc], a.tokState (s.rdTok c) ≠ .complete ∧ i ∈ (s.rdTok c).ops)) ∧
    (∃ u, exec (.tkset kd refused) s = .next u ∧ OnlyCore s.act s u ∧
      u.me = { s.me with arch := { a with
        toks := a.toks.setIfInBounds kd.toNat { refused := refused == 1, tick := s.tick } } })

/-- R303: BARBA moves a byte barrier by the low 48 bits of x[xs], arms it, and changes nothing else; a counter that would pass
the end of its range stays at the end, and the BARBWs that wait on it are refused. R309, R310: PQPUSH appends a key and
value of the core's context to its die's queue, or sets REFUSED where the key is all ones or a quota is met; PQPOP takes one
of the entries whose keys are not above the eighth smallest, or sets EMPTY and gives all ones. `p` and `u` are as for the
ring slots: an access still to be performed, or a FENCE not met, makes the operation wait (R287, log 34). R324, R327, R311:
RECVQ reads the head and the length of a channel end that the core's context holds, and 0 elsewhere; GRETIRE puts a marker
behind the core's sends to a channel, where the end is bound to its context: it stays here for a channel of this package,
and for another package's while an earlier send of the core to the channel is in the engine; SJOIN reads the join index of
the core's stage, or all ones. -/
def Obligations.BarriersQueuesAndReads : Prop :=
  (∀ (s : State) (n : BitVec 4) (xs : BitVec 5), s.act < 256 →
     let b := s.me.arch.bbars.getD n.toNat {}
     let v : Int := b.c + ((s.rx xs).toNat % 2 ^ 48 : Nat)
     (v ≤ 2 ^ 48 - 1 → -2 ^ 47 ≤ v → ∃ t, exec (.barba n xs) s = .next t ∧ OnlyCore s.act s t ∧
       t.me = { s.me with arch := { s.me.arch with bbars := s.me.arch.bbars.setIfInBounds n.toNat ⟨v, true⟩ } }) ∧
     (2 ^ 48 - 1 < v → ∃ t, exec (.barba n xs) s = .next t ∧ OnlyCore s.act s t ∧
       t.me.arch.bbars.getD n.toNat {} = ⟨2 ^ 48 - 1, true⟩ ∧
       ∀ o ∈ t.me.eng.eng, ∀ m, o.kind = .barbw m → m ≠ n)) ∧
  (∀ (s : State) (xk xv xd : BitVec 5), s.act < 256 →
     let p := s.pump s.act
     let u := p.catchUp s.act
     let turn := p.ringTurn s.act s.me.uid = true
     let d := dieOf s.act
     let key : BitVec 32 := (s.rx xk).truncate 32
     let asid := (u.asidOf s.act).getD 0
     let full := key = BitVec.allOnes 32 ∨ (u.ctx asid).pqQuota ≤ (u.pqMine s.act).length ∨ 65536 ≤ (u.die d).pq.length
     (¬ turn → (∃ t, exec (.pqpush xk xv) s = .next t ∧ Deferred p t (.pqpush xk xv) 0 (s.rx xk) (s.rx xv)) ∧
       ∃ t, exec (.pqpop xd) s = .next t ∧ Deferred p t (.pqpop xd) xd 0 0) ∧
     (turn → ¬ full → exec (.pqpush xk xv) s =
       .next (u.modDie d fun e => { e with pq := e.pq ++ [⟨key, (s.rx xv).truncate 32, asid⟩] })) ∧
     (turn → full → ∃ t, exec (.pqpush xk xv) s = .next t ∧ OnlyCore s.act u t ∧
       t.me = { u.me with arch := { u.me.arch with ctl := { u.me.arch.ctl with pqRefused := true } } }) ∧
     (turn → u.pqMine s.act = [] → ∃ t, exec (.pqpop xd) s = .next t ∧ t.me.arch.ctl.pqEmpty = true ∧
       t.me.settledX xd = if xd = 0 then 0 else BitVec.allOnes 64) ∧
     (turn → u.pqMine s.act ≠ [] → ∃ t e, exec (.pqpop xd) s = .next t ∧ e ∈ u.pqMine s.act ∧
       ((u.pqMine s.act).filter fun f => decide (f.key.toNat < e.key.toNat)).length < 8 ∧
       (t.die d).pq = (u.die d).pq.erase e ∧
       t.me.settledX xd = (if xd = 0 then 0 else e.key ++ e.val) ∧
       ∀ q, q ≠ xd → t.me.settledX q = u.me.settledX q)) ∧
  (∀ (s : State) (xd xs : BitVec 5), s.act < 256 →
     let i := routeChan (s.rx xs)
     let c := s.chan i
     (s.bound s.act i = false → ∃ t, exec (.recvq xd xs) s = .next t ∧ XHeld s t xd 0) ∧
     (s.bound s.act i = true → c.queue = [] → ∃ t, exec (.recvq xd xs) s = .next t ∧ XHeld s t xd
       (BitVec.ofNat 64 (2 ^ 63 + (if c.generr then 2 ^ 62 else 0) + c.oldest.toNat * 2 ^ 48))) ∧
     (∀ m r, s.bound s.act i = true → c.queue = (m, r) :: c.queue.tail → ∃ t, exec (.recvq xd xs) s = .next t ∧ XHeld s t xd
       (BitVec.ofNat 64 (2 ^ 63 + (if c.generr then 2 ^ 62 else 0) + c.oldest.toNat * 2 ^ 48 +
         (match m.kind with | .data => 0 | .quantised => 1 | .gated => 2 | .result => 3) * 2 ^ 46 + m.payload.length * 2 ^ 32 +
         (c.queue.map fun e => msgFlits e.1).sum * 2 ^ 16 + c.queue.length))) ∧
     (s.bound s.act i = true → ∃ t, exec (.gretire xs) s = .next t ∧ OnlyCore s.act s t ∧
       t.me = { s.me with uid := s.me.uid + 1, eng := { s.me.eng with eng := t.me.eng.eng } } ∧
       (∀ o : EngOp, (∀ x, o.kind ≠ .marker x) → (o ∈ t.me.eng.eng ↔ o ∈ s.me.eng.eng)) ∧
       (s.ownChan i = true → ({ id := s.me.uid, kind := .marker (s.rx xs), kin := {} } : EngOp) ∈ t.me.eng.eng) ∧
       (s.ownChan i = false → (({ id := s.me.uid, kind := .marker (s.rx xs), kin := {}, aux := 1 } : EngOp) ∈ t.me.eng.eng ↔
         ∃ o ∈ s.me.eng.eng, o.id < s.me.uid ∧ ∃ q g d x, o.kind = .send q g d x ∧ routeChan x = i))) ∧
     (s.bound s.act i = false → exec (.gretire xs) s = .next s) ∧
     (∀ e l, s.stageAt s.act = some (e, l) → ∃ t, exec (.sjoin xd) s = .next t ∧
       XHeld s t xd (BitVec.ofNat 64 (l.join % 2 ^ 48))) ∧
     (s.stageAt s.act = none → ∃ t, exec (.sjoin xd) s = .next t ∧ XHeld s t xd (BitVec.allOnes 64)))

/-- R305 to R307: on a ring that the core's context holds, RTICK takes the next ticket where a slot is free and otherwise waits
for one; RTAKE frees the slots taken before and takes the full slots at the head; RFILL copies one slot from the scratchpad
and marks it full. On a ring it does not hold, RTICK and RTAKE give all ones and RFILL sets ERR, in the context's own view
of the register (log 32), as it does for a closed ticket or a bad offset. `p` is the machine once the core's accesses that
can be performed are. Where every access before it is, and every FENCE met, the operation takes its place at once, and the
core sees what came before it: `u`; else it waits (R287, log 34). -/
def Obligations.RingSlots : Prop :=
  ∀ (s : State) (ring : BitVec 8) (xd xs : BitVec 5) (ar : BitVec 4), s.act < 256 →
    let p := s.pump s.act
    let u := p.catchUp s.act
    let turn := p.ringTurn s.act s.me.uid = true
    let Err := fun (t : State) => t = { u with work := { u.work with ctxs := t.work.ctxs } } ∧
      ∀ asid < 512, u.asidOf s.act = some asid → (t.ringReg s.act ring.toNat).getLsbD 50 = true
    let Fixed := fun (i : Instr) (v : Word) => ∃ t, exec i s = .next t ∧ XHeld u t xd v
    let Queues := ∃ t, exec (.rtick ring xd) s = .next t ∧ OnlyCore s.act p t ∧ RegsKept p t ∧
      t.me.seq.ticketWait = p.me.seq.ticketWait ++ [(p.me.uid, ring, xd)]
    ((∀ o ∈ s.me.eng.memq, o.performed = true) → p = s) ∧
    (¬ turn → Queues ∧ (∃ t, exec (.rtake ring xd) s = .next t ∧ Deferred p t (.rtake ring xd) xd 0 0) ∧
      ∃ t, exec (.rfill ring xs ar) s = .next t ∧ Deferred p t (.rfill ring xs ar) 0 (s.rx xs) (s.ra ar)) ∧
    (turn → u.ringOf s.act ring.toNat = none → Fixed (.rtick ring xd) (BitVec.allOnes 64) ∧ Fixed (.rtake ring xd) (BitVec.allOnes 64) ∧
      ∃ t, exec (.rfill ring xs ar) s = .next t ∧ Err t) ∧
    (∀ r, turn → u.ringOf s.act ring.toNat = some r →
      (r.hasTicket = true → ∃ t, exec (.rtick ring xd) s = .next t ∧
        XHeld { u with fabric := { u.fabric with rings := u.fabric.rings.setIfInBounds ring.toNat (some { r with ticket := r.ticket + 1 }) } }
          t xd (r.ticket.zeroExtend 64)) ∧
      (r.hasTicket = false → Queues) ∧
      (∃ t, exec (.rtake ring xd) s = .next t ∧
        ∃ q n, t.fabric.rings.getD ring.toNat none = some q ∧
          t.me.settledX xd = (if xd = 0 then 0 else BitVec.ofNat 64 (r.head.toNat + n * 2 ^ 32)) ∧
          n ≤ r.size ∧ q.head = r.head + BitVec.ofNat 32 n ∧ q.taken = BitVec.ofNat 32 n ∧
          q = { r with full := q.full, head := q.head, taken := q.taken } ∧
          (∀ j < n, q.full.getD ((r.head.toNat + j) % r.size) false = true) ∧
          (n < r.size → q.full.getD ((r.head.toNat + n) % r.size) false = false)) ∧
      (let t0 : BitVec 32 := (s.rx xs).truncate 32
       let i := t0.toNat % r.size
       let n := 2 ^ r.slotlog
       let e := (s.ra ar).toNat
       let ok := (t0 - r.head).toNat < (r.ticket - r.head).toNat ∧ r.full.getD i false = false ∧
         e % 64 = 0 ∧ e + n ≤ s.me.spadSize
       (ok → r.slice < 64 → (u.rod r.slice).slice.staging.wf = true → ∃ t, exec (.rfill ring xs ar) s = .next t ∧
         t.fabric.rings.getD ring.toNat none = some { r with full := r.full.set i true } ∧
         (∀ b < n, (t.rod r.slice).slice.staging.read (r.base * 64 + i * n + b) = s.me.spad.read (e + b)) ∧
         ∀ a, (a < r.base * 64 + i * n ∨ r.base * 64 + i * n + n ≤ a) →
           (t.rod r.slice).slice.staging.read a = (u.rod r.slice).slice.staging.read a) ∧
       (¬ ok → ∃ t, exec (.rfill ring xs ar) s = .next t ∧ Err t)))

/-- R352 to R357, R391: PLOOK reads the entry that the configuration and the history select; PTRAIN raises the confidence of a
slot whose expert is among the actual ones, lowers it otherwise, and then gives each of these, in order, a free slot where
none holds it; PCLR clears the table and PCFG writes the configuration. None changes any other register or memory. An entry
whose parity fails reads as all free, and is written zero. R359 to R366: RESOLVE, TCOMMIT, TSQUASH and RLIST start the
resolve unit on what they read at issue, for their number of cycles; operands that are not as the rule asks give the
speculation fate, with NV. Rows of tdst that no valid tentative row names stay. RESOLVE adds the one tentative row that
names a row of tdst, weighted by the first unmarked entry of the routing row with its expert and generation; TCOMMIT adds
each valid row to its own. RLIST takes the missing list's first entry. -/
def Obligations.PredictorAndResolveUnit : Prop :=
  (∀ (s : State) (xd xa xb : BitVec 5), s.act < 256 →
     let cfg := s.me.latch.ctl.predcfg
     let i := predIdx cfg (s.rx xa)
     let e := s.me.pred.getD i.toNat ({}, {})
     let bad := s.me.predBad.contains i.toNat = true
     let ex := fun p : PredSlot => if e.1.conf = 0 ∧ e.2.conf = 0 then 0 else p.expert.toNat
     let th := max 1 ((cfg >>> 16).toNat % 4)
     let rep := fun p : PredSlot => if th ≤ p.conf.toNat then 1 else 0
     let one := s.rx xb
     (¬ bad → ∃ t, exec (.plook xd xa) s = .next t ∧ XHeld s t xd (BitVec.ofNat 64 (ex e.1 * 2 ^ 12 + rep e.1 * 2 ^ 28 +
       ex e.2 * 2 ^ 32 + rep e.2 * 2 ^ 40 + e.1.conf.toNat * 2 ^ 41 + e.2.conf.toNat * 2 ^ 43 + i.toNat * 2 ^ 48))) ∧
     (bad → ∃ t, exec (.plook xd xa) s = .next t ∧ t.me.predBad.contains i.toNat = false ∧ t.me.pred.getD i.toNat ({}, {}) = ({}, {}) ∧
       t.me.settledX xd = (if xd = 0 then 0 else BitVec.ofNat 64 (i.toNat * 2 ^ 48)) ∧
       ∀ q, q ≠ xd → t.me.settledX q = s.me.settledX q) ∧
     (bad → ∃ t, exec (.ptrain xa xb) s = .next t ∧ t.me.predBad.contains i.toNat = false ∧ ∀ q, t.me.settledX q = s.me.settledX q) ∧
     (¬ bad → ∃ t, exec (.ptrain xa xb) s = .next t ∧ OnlyCore s.act s t ∧ t.me = { s.me with pred := t.me.pred } ∧
       (∀ j < 4096, j ≠ i.toNat → t.me.pred.getD j ({}, {}) = s.me.pred.getD j ({}, {})) ∧
       let actual := (if one.getLsbD 8 = true then [one.extractLsb' 0 8] else []) ++ (if one.getLsbD 24 = true then [one.extractLsb' 16 8] else [])
       let train := fun q : PredSlot => if q.conf = 0 then q else if q.expert ∈ actual then { q with conf := if q.conf = 3 then 3 else q.conf + 1 }
         else { q with conf := q.conf - 1 }
       let takes := fun (f : PredSlot × PredSlot) (x : BitVec 8) =>
         if (f.1.conf ≠ 0 ∧ f.1.expert = x) ∨ (f.2.conf ≠ 0 ∧ f.2.expert = x) then f
         else if f.1.conf = 0 then (⟨x, 1⟩, f.2) else if f.2.conf = 0 then (f.1, ⟨x, 1⟩) else f
       t.me.pred.getD i.toNat ({}, {}) = actual.foldl takes (train e.1, train e.2)) ∧
     (∃ t, exec .pclr s = .next t ∧ OnlyCore s.act s t ∧ t.me = { s.me with pred := Vector.replicate 4096 ({}, {}), predBad := [] }) ∧
     (∃ t, exec (.pcfg xa) s = .next t ∧ OnlyCore s.act s t ∧
       t.me = { s.me with arch := { s.me.arch with ctl := { s.me.arch.ctl with predcfg := s.rx xa &&& 0x37FFF } } })) ∧
  (∀ (s : State) (td tt : BitVec 4) (v : BitVec 6) (xd : BitVec 5), s.act < 256 →
     let dst := s.specTile td
     let tent := s.specTile tt
     let route := s.specTile (vTile v)
     let Starts := fun (i : Instr) (n : Nat) (P : SpecOp → Prop) => ∃ t o, exec i s = .next t ∧ OnlyCore s.act s t ∧ RegsKept s t ∧
       t.me.eng.spec = some o ∧ o.id = s.me.uid ∧ o.doneCyc = s.me.cyc + n ∧ P o
     let Fate := fun (i : Instr) (n : Nat) (out : Option (BitVec 5 × Word)) => Starts i n fun o =>
       o.dst = none ∧ o.tent = none ∧ o.out = out ∧ o.flags = flagNV
     let rOk := tent.tent ∧ dst.isTy .fp32 ∧ ¬ dst.tent ∧ td ≠ tt ∧ (route.isTy .int32 ∨ route.isTy .fp32)
     let cOk := tent.tent ∧ ¬ dst.tent ∧ td ≠ tt ∧
       ((dst.isTy .fp32 ∧ (tent.isTy .fp32 ∨ tent.isTy .int32)) ∨ (dst.isTy .int32 ∧ tent.isTy .int32))
     let base := 64 * (s.me.rdC (vCur v)).toNat
     let marks := if s.me.eng.resolve.owner = some (vTile v, base) ∧ vTile v ≠ td ∧ vTile v ≠ tt then s.me.eng.resolve.marks else 0
     let tag := fun m => tent.tags.getD m {}
     let row := fun m => if m < tent.rowCount then tent.rows.getD m 0 else 0
     let id := fun q j => rowElem .int32 (route.rows.getD q 0) j
     let names := fun q j m => id q j < 2 ^ 31 ∧ id q j % 256 = (tag m).expert.toNat ∧ id q j / 256 % 256 = (tag m).gen.toNat ∧
       marks.getLsbD (8 * q + j) = false
     (rOk → Starts (.resolve td tt v xd) 72 fun o => (∃ r, o.dst = some (td, r) ∧
         (∀ q < 64, (dst.rowCount ≤ q ∨ route.rowCount ≤ q ∨ ∀ m < 64, (tag m).valid = true → (tag m).token.toNat ≠ base + q) → r.getD q 0 = dst.rows.getD q 0) ∧
         (∀ q < min dst.rowCount 64, q < route.rowCount → ∀ m < 64, (tag m).valid = true → (tag m).token.toNat = base + q →
           (∀ k < 64, (tag k).valid = true → (tag k).token.toNat = base + q → k = m) →
           ((∀ j < 8, ¬ names q j m) → r.getD q 0 = dst.rows.getD q 0) ∧
           (∀ j < 8, names q j m → (∀ k < j, ¬ names q k m) → tent.isTy .fp32 = true → ∀ n < 64, rowElem .fp32 (r.getD q 0) n =
             (elFma .fp32 (rowElem .fp32 (route.rows.getD q 0) (8 + j)) (rowElem .fp32 (row m) n) (rowElem .fp32 (dst.rows.getD q 0) n)).1
               % 2 ^ 32))) ∧ o.tent = some (tt, tent.tagged) ∧
       ∃ sq cf n, o.out = some (xd, BitVec.ofNat 64 (sq + cf * 2 ^ 16 + n * 2 ^ 32)) ∧
         sq + cf = ((List.range 64).filter fun m => (tent.tags.getD m {}).valid).length) ∧
     (¬ rOk → Fate (.resolve td tt v xd) 72 (some (xd, 0))) ∧
     (cOk → Starts (.tcommit td tt) 72 fun o => (∃ r, o.dst = some (td, r) ∧
       (∀ m < 64, ((tent.tags.getD m {}).valid = false ∨ dst.rowCount ≤ m) → r.getD m 0 = dst.rows.getD m 0) ∧
       ∀ m < min dst.rowCount 64, (tag m).valid = true → ∀ n < 64,
         (dst.isTy .int32 = true → rowElem .int32 (r.getD m 0) n =
           (elAdd .int32 (rowElem .int32 (dst.rows.getD m 0) n) (rowElem .int32 (row m) n)).1) ∧
         (dst.isTy .fp32 = true → tent.isTy .fp32 = true → rowElem .fp32 (r.getD m 0) n =
           (elAdd .fp32 (rowElem .fp32 (dst.rows.getD m 0) n) (rowElem .fp32 (row m) n)).1 % 2 ^ 32)) ∧
       o.tent = some (tt, tent.tagged) ∧ o.out = none) ∧
     (¬ cOk → Fate (.tcommit td tt) 72 none) ∧
     (tent.tent = true → Starts (.tsquash tt) 4 fun o => o.dst = none ∧ o.tent = some (tt, tent.tagged) ∧ o.out = none ∧ o.flags = 0) ∧
     (tent.tent = false → Fate (.tsquash tt) 4 none) ∧
     (s.me.eng.resolve.missing = [] → Starts (.rlist xd) 2 fun o => o.out = some (xd, 0)) ∧
     (∀ g rest, s.me.eng.resolve.missing = g :: rest → Starts (.rlist xd) 2 fun o => o.out = some (xd, BitVec.ofNat 64
       (g.token.toNat + g.expert.toNat * 2 ^ 12 + g.gen.toNat * 2 ^ 20 + 2 ^ 28 + rest.length * 2 ^ 32))))

/-! ### Steps of the machine without a slot -/

/-- R214 to R217: a filler bundle in a core's turn charges 8 slot positions to FILLER and counts 3 units; a stall charges them
to ENERGY and counts 0. Where the core writes no charge stream, nothing else of the machine changes but the turn and the
count of the cycle. R215, R216: at the end of a window of 64 cycles LAST_IMB is the greatest sum less the least; OVER counts
consecutive windows above 48 and two of them throttle the next window, which starts OVER at 0; the sums start at 0, and a
GRANT that was written comes in force. -/
def Obligations.FillersStallsAndWindows : Prop :=
  (∀ (s : State) (n : Nat), n < 256 → s.isTurn n = true → ((s.core n).acct.acs.en = false ∨ (s.core n).acct.acs.err = true) →
     let a := (s.core n).acct
     let k := (s.rod (n / 4)).clk
     let Charges := fun (i : Instr) (cause units : Nat) => ∃ t, exec i s = .next t ∧
       t = { s with cores := t.cores, rods := t.rods } ∧
       (∀ m, m ≠ n → t.core m = s.core m) ∧ (∀ r, r ≠ n / 4 → t.rod r = s.rod r) ∧
       t.core n = { s.core n with
         acct := { a with live := a.live.setIfInBounds cause (a.live.getD cause 0 + 8), held := a.held + 1 } } ∧
       t.rod (n / 4) = { s.rod (n / 4) with
         clk := { k with turn := k.turn + 1, adds := k.adds.setIfInBounds (n % 4) units } }
     Charges (.fillerBundle n) 9 3 ∧ Charges (.stallBundle n) 8 0) ∧
  (∀ (s : State) (r : Nat), r < 64 → 64 ≤ (s.rod r).clk.wcyc →
     let k := (s.rod r).clk
     ∃ (t : State) (hi lo : Nat), exec (.windowEnd r) s = .next t ∧ OnlyRod r s t ∧
       (∀ i < 4, lo ≤ k.sums.getD i 0 ∧ k.sums.getD i 0 ≤ hi) ∧
       (∃ i < 4, k.sums.getD i 0 = hi) ∧ (∃ i < 4, k.sums.getD i 0 = lo) ∧
       t.rod r = { s.rod r with clk := { k with
         lastImb := hi - lo,
         overrun := if k.throt ∨ hi - lo ≤ 48 ∨ 1 ≤ k.overrun then 0 else 1,
         throt := decide (k.throt = false ∧ 48 < hi - lo ∧ 1 ≤ k.overrun),
         window := k.window + 1,
         wcyc := 0,
         sums := Vector.replicate 4 0,
         adds := Vector.replicate 4 0,
         grant := k.grantNext.getD k.grant,
         grantNext := none } })

/-- R220, R221, R224, R225: ABACUS_FLUSH adds a core's live counters and held cycles to its context's account area, where SEQ
rises by 2 and WBTICK is the tick, and starts them at 0; the open run of a core closes where its stream is on and without
error: its record stands at its place in the ring, TAIL in the core and in the header is one more, or, where the ring is
full, DROPPED is; enabling a stream starts it empty, or sets ERR where LOG2N is outside 4 to 24 (log 30) or its window does
not map; disabling stops it. No register of any core changes. Bytes of memory are spoken of where they are plainly mapped
and no error is planted. -/
def Obligations.AbacusAndStream : Prop :=
  ∀ (s : State) (n : Nat), n < 256 →
    let a := (s.core n).acct.acs
    let live := (s.core n).acct.live
    let Keeps := fun (t : State) => ∀ m < 256, (t.core m).arch = (s.core m).arch
    let used := (a.tail.toNat + 2 ^ 32 - s.streamHead n) % 2 ^ 32
    let base := a.base.toNat
    ((s.core n).flushDue = true → ∃ t, exec (.abacusFlush n) s = .next t ∧ Keeps t ∧
      (t.core n).acct.live = Vector.replicate 16 0 ∧ (t.core n).acct.held = 0 ∧
      (s.Calm → s.dram.wf = true → (a.en = false ∨ a.err = true) → ∀ ia o, s.acctIa (s.asidOf n) = some ia → s.PlainAt ia o 0x98 →
        (∀ c < 16, t.ia64 (ia + 8 * c) = (s.ia64 (ia + 8 * c) + live.getD c 0) % 2 ^ 64) ∧
        t.ia64 (ia + 0x80) = (s.ia64 (ia + 0x80) + (s.core n).acct.held) % 2 ^ 64 ∧
        t.ia64 (ia + 0x88) = (s.ia64 (ia + 0x88) + 2) % 2 ^ 64 ∧ t.ia64 (ia + 0x90) = s.tick % 2 ^ 64 ∧
        ∀ b, (b < o ∨ o + 0x98 ≤ b) → s.NoCount b → t.dram.read b = s.dram.read b)) ∧
    ((a.en = false ∨ a.err = true ∨ a.runCount = 0) → exec (.chargeRunClose n) s = .next s) ∧
    (a.en = true → a.err = false → a.runCount ≠ 0 → ∃ t, exec (.chargeRunClose n) s = .next t ∧ Keeps t ∧
      (t.core n).acct.acs.runCount = 0 ∧
      (s.Calm → s.dram.wf = true → ∀ r ro h ho, s.streamIa n (base + 64 + 16 * (a.tail.toNat % 2 ^ a.log2n.toNat)) 16 = some r →
        s.streamIa n base 8 = some h → s.streamIa n (base + 8) 8 = some (h + 8) →
        s.PlainAt r ro 16 → s.PlainAt h ho 16 → (ro + 16 ≤ ho ∨ ho + 16 ≤ ro) →
        (used < 2 ^ a.log2n.toNat → a.gap = 0 → (t.core n).acct.acs = { a with tail := a.tail + 1, runCount := 0 } ∧
          t.ia64 r = a.runPc.toNat ∧ t.ia64 (r + 8) = (a.runCount + a.runCause * 2 ^ 48 + n * 2 ^ 52) % 2 ^ 64 ∧
          t.ia64 h = (a.tail + 1).toNat ∧
          ∀ b, (b < ro ∨ ro + 16 ≤ b) → (b < ho ∨ ho + 8 ≤ b) → s.NoCount b → t.dram.read b = s.dram.read b) ∧
        (used = 2 ^ a.log2n.toNat → (t.core n).acct.acs = { a with
          dropped := min (a.dropped + 1) (2 ^ 32 - 1), gap := min (a.gap + a.runCount) (2 ^ 48 - 1), runCount := 0 }))) ∧
    (∃ t, exec (.acsDisable n) s = .next t ∧ Keeps t ∧ (t.core n).acct.acs.en = false) ∧
    (a.en = false →
      let fits := 4 ≤ a.log2n.toNat ∧ a.log2n.toNat ≤ 24 ∧
        ∃ x, s.asidOf n = some x ∧ ((s.ctx x).translate base (64 + 16 * 2 ^ a.log2n.toNat) false true).isSome = true
      ∃ t, exec (.acsEnable n) s = .next t ∧ Keeps t ∧ (t.core n).acct.acs.en = true ∧
        (¬ fits → (t.core n).acct.acs = { a with en := true, err := true }) ∧
        (fits → s.Calm → s.dram.wf = true → ∀ h ho, s.streamIa n base 8 = some h → s.streamIa n (base + 16) 8 = some (h + 16) →
          s.PlainAt h ho 24 →
          (t.core n).acct.acs = { a with en := true, tail := 0, dropped := 0, gap := 0, runCount := 0 } ∧
          t.ia64 h = 0 ∧ t.ia64 (h + 16) = 0))

/-- R227, R228, R232, R237: an operating point changes where the target differs: a lowering relocks at once, for 56 ticks; a
raise ramps for SETTLE of the target, and its entry into boost costs 4 permits; a ramp whose target falls goes on to the
nearer destination or is abandoned. A ramp that ends relocks into its destination; a relock that ends is at its point. In
the last 56 ticks of SAVE no relock begins (log 26). -/
def Obligations.OperatingPoints : Prop :=
  ∀ (s : State) (r : Nat), r < 64 →
    let k := (s.rod r).clk
    let p := s.panel (r / 4)
    let goal := s.target r
    let Clock := fun (i : Instr) (P : RodClock → Panel → Prop) => ∃ t, exec i s = .next t ∧ OnlyRodPanel r s t ∧
      t.rod r = { s.rod r with clk := (t.rod r).clk } ∧ P (t.rod r).clk (t.panel (r / 4))
    (s.changeDue r = true →
      (k.change = none → goal < k.point → Clock (.opChangeBegin r) fun c q =>
        c.change = some ⟨true, goal, s.tick, s.tick + 56⟩ ∧ c.point = k.point ∧ q.p = p.p ∧ q.ftcnt = p.ftcnt + 1) ∧
      (k.change = none → k.point < goal → Clock (.opChangeBegin r) fun c q =>
        c = { k with change := some ⟨false, goal, s.tick, s.tick + settle goal⟩ } ∧
        q = (if 5 < goal ∧ s.eligible (r / 4) ∧ ¬ s.boosting (r / 4) then { p with p := p.p - 4 } else p)) ∧
      (∀ c0, k.change = some c0 → k.point < goal → Clock (.opChangeBegin r) fun c q =>
        c = { k with change := some ⟨false, goal, c0.start, max (c0.start + settle goal) s.tick⟩ } ∧
        (q = p ∨ q = { p with pool := false })) ∧
      (∀ c0, k.change = some c0 → goal = k.point → Clock (.opChangeBegin r) fun c q =>
        c = { k with change := none } ∧ (q = p ∨ q = { p with pool := false })) ∧
      (∀ c0, k.change = some c0 → goal < k.point → Clock (.opChangeBegin r) fun c q =>
        c.change = some ⟨true, goal, s.tick, s.tick + 56⟩ ∧ c.point = k.point ∧ q.p = p.p)) ∧
    (∀ c0, k.change = some c0 → c0.till ≤ s.tick →
      (c0.relock = false → ((s.rod r).pm.state = .on ∨ (s.rod r).pm.state = .quiesce ∨
          ((s.rod r).pm.state = .save ∧ s.tick + 56 < (s.rod r).pm.till)) → Clock (.rampEnd r) fun c q =>
        c.change = some ⟨true, c0.dest, s.tick, s.tick + 56⟩ ∧ c.point = k.point ∧ q.p = p.p) ∧
      (c0.relock = true → Clock (.relockEnd r) fun c q =>
        c = { k with point := c0.dest, change := none } ∧ q.p = p.p ∧ q.ftcnt = p.ftcnt + 1))

/-- R231 to R233: a deficit of 28,000 spends a permit, and with none left at level 6 or 7 a fall begins, whose second step is
28,000 ticks on and blocks boost; 28,000 ticks at level 5 or below earn a permit, up to 64, and unblock where BENTRY is
reached. A free place of a die's boost pool goes to the earliest claim, the lower panel first; a panel without a place
claims one where a rod wants point 7, and gives up its claim where none does, and its place where no rod is at point 7 or on
its way there. That no fall begins while BLOCK stands, and that no place is given up in the tick of its grant, are the
model's (log 26). -/
def Obligations.BoostPermitsAndPools : Prop :=
  ∀ (s : State) (n die : Nat), n < 16 → die < 2 →
    let p := s.panel n
    let Panel := fun (i : Instr) (q : Machine.Panel) => ∃ t, exec i s = .next t ∧ OnlyPanel n s t ∧ t.panel n = q
    (28000 ≤ p.d → Panel (.permitSpent n)
      (if p.fall = none ∧ p.block = false ∧ p.p ≤ 1 ∧ 6 ≤ s.level n
       then { p with d := p.d - 28000, p := 0, fall := some (s.tick + 28000), claim := none }
       else { p with d := p.d - 28000, p := p.p - 1 })) ∧
    (28000 ≤ p.f → Panel (.permitEarned n)
      { p with f := 0, p := min (p.p + 1) 64, block := p.block && decide (min (p.p + 1) 64 < s.bentry) }) ∧
    (∀ till, p.fall = some till → till ≤ s.tick → Panel (.boostFallSecondStep n) { p with fall := none, block := true }) ∧
    (s.wants7 n = true → p.pool = false → p.claim = none →
      (2 ≤ s.poolHeld (n / 8) → Panel (.poolClaim n) { p with claim := some s.tick }) ∧
      (s.poolHeld (n / 8) < 2 → (∀ q ∈ panelsOf (n / 8), (s.panel q).claim = none) →
        Panel (.poolClaim n) { p with pool := true, poolAt := s.tick })) ∧
    Panel (.poolWithdraw n) { p with
      claim := if s.wants7 n then p.claim else none, pool := p.pool && (s.at7 n || decide (s.tick ≤ p.poolAt)) } ∧
    (s.poolHeld die < 2 → (∃ q ∈ panelsOf die, (s.panel q).claim ≠ none) → ∃ t q c, exec (.poolGrant die) s = .next t ∧
      q ∈ panelsOf die ∧ (s.panel q).claim = some c ∧ OnlyPanel q s t ∧
      t.panel q = { s.panel q with pool := true, poolAt := s.tick, claim := none } ∧
      ∀ q' ∈ panelsOf die, ∀ c', (s.panel q').claim = some c' → c < c' ∨ c = c' ∧ q ≤ q')

/-- R234 to R236: every 1,400 ticks a power sample joins the latest; the ceiling falls by one where the 10 ms mean is above
PEAKW or the 1 s mean above AVGW, and rises by one where both are well below, each held apart in time; every 1,400 ticks a
reading sets the trip of its panel or clears it 12 steps below, at most once in a dwell of 70,000 ticks, and one of 125 °C
freezes the package; at the end of the dwell a condition that holds at the reading there toggles the trip. That samples and
readings fall due at the multiples of 1,400 ticks, and that an early one is none, are the model's (logs 26 and 1). -/
def Obligations.CapAndTrips : Prop :=
  ∀ (s : State) (w n steps : Nat), n < 16 →
    let p := s.power
    let q := s.panel n
    let ws := w :: p.samples.take 999999
    let overrun := 10 * min p.peakw.toNat 3000 < (ws.take 10).sum ∨ 1000000 * min p.avgw.toNat 2400 < ws.sum
    let under := 32 * (ws.take 10).sum ≤ 310 * min p.peakw.toNat 3000 ∧ 32 * ws.sum ≤ 31000000 * min p.avgw.toNat 2400
    let down := overrun ∧ 2 < p.pkceil ∧ ∀ u, p.lastDec = some u → u + 14000 ≤ s.tick
    let up := ¬ overrun ∧ under ∧ p.pkceil < 7 ∧ ∀ u, p.lastChg = some u → u + 140000 ≤ s.tick
    let Power := fun (v : Machine.Power) => exec (.powerSample w) s = .next { s with power := v }
    let trip := min p.thr.toNat 480
    let holds := fun temp : Nat => (q.trip = true ∧ temp + 12 ≤ trip) ∨ (q.trip = false ∧ trip ≤ temp)
    let Reads := fun (v : Machine.Panel) => ∃ t, exec (.thermalReading n steps) s = .next t ∧ t.panel n = v ∧
      (steps < 500 → OnlyPanel n s t) ∧ (500 ≤ steps → t.errors.frozen = true)
    let sampled := 1400 * (p.taken + 1) ≤ s.tick
    let read := 1400 * (q.readings + 1) ≤ s.tick
    let taken := p.taken + 1
    let readings := q.readings + 1
    (sampled → down → Power { p with
      samples := ws, taken := taken, pkceil := p.pkceil - 1, lastDec := some s.tick, lastChg := some s.tick }) ∧
    (sampled → up → Power { p with samples := ws, taken := taken, pkceil := p.pkceil + 1, lastChg := some s.tick }) ∧
    (sampled → ¬ down → ¬ up → Power { p with samples := ws, taken := taken }) ∧
    (¬ sampled → exec (.powerSample w) s = .next s) ∧
    (read → holds steps → (∀ u, q.lastToggle = some u → u + 70000 < s.tick) →
      Reads { q with temp := steps, readings := readings, trip := !q.trip, lastToggle := some s.tick }) ∧
    (read → (¬ holds steps ∨ ∃ u, q.lastToggle = some u ∧ s.tick ≤ u + 70000) →
      Reads { q with temp := steps, readings := readings }) ∧
    (¬ read → exec (.thermalReading n steps) s = .next s) ∧
    (70000 ≤ s.tick → ¬ read → q.lastToggle = some (s.tick - 70000) → holds q.temp → ∃ t, exec (.thermalDwellEnd n) s = .next t ∧
      OnlyPanel n s t ∧ t.panel n = { q with trip := !q.trip, lastToggle := some s.tick })

/-- R239: the gating commands of a rod. A held rod refuses them, and so does one on its way; otherwise the rod quiesces, writes
its dirty lines back, saves its state for 2,800 ticks and rests clock-gated, or holds for 2,800 ticks and takes its rail
down in 5,600. That it has no clock at rest and drops a ramp there, and that it waits for the end of a cycle, are the
model's (log 26). R240, R163: a write of a core's wake register wakes its rod: from CLOCK_GATED or HOLD the rod restores for
5,600 ticks at point 5; from RAIL_GATED it waits for the in-rush arbiter of its die, which lets at most four rods ramp, the
earliest wake and then the lower number first, for 11,200 ticks; a rod on its way down notes the wake. The rod that has
restored is ON. -/
def Obligations.RodGatingAndWaking : Prop :=
  (∀ (s : State) (r : Nat), r < 64 →
     let o := s.rod r
     let m := o.pm
     let Rod := fun (i : Instr) (v : Machine.Rod) => ∃ t, exec i s = .next t ∧ OnlyRod r s t ∧ t.rod r = v
     let Refuses := fun (i : Instr) => Rod i { o with pm := { m with refused := true } }
     let Quiesces := fun (i : Instr) (rail : Bool) => ∃ t n, exec i s = .next t ∧ OnlyRod r { s with fresh := s.fresh + 1 } t ∧
       t.rod r = { o with pm := { m with state := .quiesce, till := s.tick + n, rail := rail, refused := false, wake := none } }
     let still := { o.clk with turn := 4, change := none }
     ((o.heldBy = true ∨ m.state ≠ .on) → Refuses (.clockGate r)) ∧
     (o.heldBy = false → m.state = .on → Quiesces (.clockGate r) false ∧ Quiesces (.railGate r) true) ∧
     ((o.heldBy = true ∨ (m.state ≠ .on ∧ m.state ≠ .clockGated)) → Refuses (.railGate r)) ∧
     (o.heldBy = false → m.state = .clockGated → Rod (.railGate r)
       { o with pm := { m with state := .hold, till := s.tick + 2800, rail := true, refused := false, wake := none } }) ∧
     (m.state = .quiesce → m.till ≤ s.tick → ∃ t, exec (.quiesceEnd r) s = .next t ∧
       (t.rod r).pm = { m with state := .save, till := s.tick + 2800 } ∧ (t.rod r).slice.lines = [] ∧
       (∀ c < 256, c / 4 = r → (t.core c).l1 = [] ∧ (t.core c).l1Wait = []) ∧
       (s.errors.planted = [] → t.rod r = { o with pm := (t.rod r).pm, slice := { o.slice with lines := [] } } ∧
         (∀ q, q ≠ r → t.rod q = s.rod q) ∧ ∀ c < 256, (t.core c).arch = (s.core c).arch) ∧
       ((∀ l ∈ o.slice.lines, l.dirty = false) → t = { s with rods := t.rods, cores := t.cores } ∧
         ∀ c < 256, t.core c = if c / 4 = r then { s.core c with l1 := [], l1Wait := [] } else s.core c)) ∧
     (m.state = .save → o.clk.turn = 4 → m.till ≤ s.tick → m.wake = none → Rod (.saveStateEnd r)
       { o with pm := { m with state := if m.rail then .hold else .clockGated, till := s.tick + 2800 }, clk := still }) ∧
     (m.state = .save → o.clk.turn = 4 → m.till ≤ s.tick → m.wake ≠ none → ∃ t, exec (.saveStateEnd r) s = .next t ∧ OnlyRod r s t ∧
       (t.rod r).pm.state = .waking ∧ (t.rod r).pm.restoring = true ∧ (t.rod r).pm.till = s.tick + 5600 ∧ (t.rod r).clk.point = 5) ∧
     (m.state = .hold → m.till ≤ s.tick → Rod (.holdEnd r) { o with pm := { m with state := .railDown, till := s.tick + 5600 } }) ∧
     (m.state = .railDown → m.till ≤ s.tick → m.wake = none → Rod (.railDownEnd r)
       { o with pm := { m with state := .railGated, till := 0 }, clk := still }) ∧
     (m.state = .railDown → m.till ≤ s.tick → m.wake ≠ none → Rod (.railDownEnd r)
       { o with pm := { m with state := .waking, till := 0, inrush := true }, clk := still })) ∧
  (∀ (s : State) (r n die : Nat), r < 64 → n < 256 → n / 4 = r → die < 2 →
     let o := s.rod r
     let m := o.pm
     let since := some (m.wake.getD s.tick)
     let Wakes := fun (v : Machine.Rod) => ∃ t, exec (.wake n) s = .next t ∧ t = { s with rods := t.rods, cores := t.cores } ∧
       (∀ q, q ≠ r → t.rod q = s.rod q) ∧ t.rod r = v ∧ (∀ c, c ≠ n → t.core c = s.core c) ∧
       t.core n = { s.core n with seq := { (s.core n).seq with wakeFlag := true } }
     let back := { o.clk with point := 5, change := none, nextEdge := s.now, turn := 4 }
     (m.state = .on ∨ m.state = .waking → Wakes o) ∧
     (m.state = .clockGated ∨ m.state = .hold → Wakes { o with
       pm := { m with state := .waking, till := s.tick + 5600, inrush := false, ramping := false, restoring := true, wake := since },
       clk := back }) ∧
     (m.state = .railGated → Wakes { o with pm := { m with state := .waking, inrush := true, wake := since } }) ∧
     (m.state = .quiesce ∨ m.state = .save ∨ m.state = .railDown → Wakes { o with pm := { m with wake := since } }) ∧
     (((rodsOfDie die).filter fun q => (s.rod q).pm.ramping).length < 4 → (∃ q ∈ rodsOfDie die, (s.rod q).pm.inrush = true) →
       ∃ t q, exec (.inrushAdmit die) s = .next t ∧ q ∈ rodsOfDie die ∧ (s.rod q).pm.inrush = true ∧ OnlyRod q s t ∧
         t.rod q = { s.rod q with pm := { (s.rod q).pm with inrush := false, ramping := true, till := s.tick + 11200 } } ∧
         ∀ q' ∈ rodsOfDie die, (s.rod q').pm.inrush = true →
           (s.rod q).pm.wake.getD 0 < (s.rod q').pm.wake.getD 0 ∨
           ((s.rod q).pm.wake.getD 0 = (s.rod q').pm.wake.getD 0 ∧ q ≤ q')) ∧
     (m.ramping = true → m.till ≤ s.tick → ∃ t, exec (.inrushRampEnd r) s = .next t ∧ OnlyRod r s t ∧
       t.rod r = { o with
         pm := { m with state := .waking, till := s.tick + 5600, inrush := false, ramping := false, restoring := true },
         clk := back }) ∧
     (m.restoring = true → m.till ≤ s.tick → ∃ t, exec (.wakeRestoreEnd r) s = .next t ∧ OnlyRod r s t ∧
       t.rod r = { o with pm := { m with state := .on, till := 0, restoring := false, wake := none } }))

/-- R62, R19, R21, R314: a doorbell writes LQTAIL, and the slots it covers are seen as they stand; a write of LQCFG writes the
queue's size and its enable and, as a one clears it, ERR. A TAIL more than the queue's size ahead of HEAD, or an enable with
a size outside 4 to 16, sets ERR; no other queue and nothing else of the machine changes. Package reset leaves the reset
state, in which the firmware runs where its signature verifies, and the domain is then as the boot configuration gives it
(log 4). A link trains to the highest width and speed that both of its ends support. R63, R64, R46 to R49, R394: the command
at HEAD. Its slot is read first; where that read loses it, it is another command, and one whose completion waited for its
page completes. One with a reserved bit or code is a BAD_COMMAND, a nonzero PRIO of a command that has none among them, and
one with a misaligned completion address BAD_ARGS (both log 27), with nothing else of it done; MSI-X vector q is raised on
both host links (log 27 too); NOP, IMG_LOAD, IMG_UNLOAD and ATTEST do what they say and answer with the status that their
checks give, in the order of the checks; where an image is placed, and NO_SPACE, are log 15. A command that ends advances
HEAD, and its record stands at its address where that is plainly mapped. `v` is the machine once the slot has been read, and
`w` once the command's operands have. No signature of a key is known here, so the signed branch has no witness. -/
def Obligations.LaunchQueues : Prop :=
  (∀ (s : State) (q link width speed : Nat) (v : BitVec 64), q < 64 → link < 2 →
     let l := s.lq q
     let wrong := fun (tail : BitVec 32) (en : Bool) (log2n : Nat) =>
       decide (2 ^ log2n < (tail - l.head).toNat ∨ (en = true ∧ ¬ (4 ≤ log2n ∧ log2n ≤ 16)))
     let Queue := fun (w : LaunchQ) (t : State) => (∃ at', t.lq q = { w with serveAt := at' } ∧
       (at' = none ↔ s.host.firmware = false ∨ w.served = false)) ∧ (∀ p, p ≠ q → t.lq p = s.lq p) ∧
       t = { s with host := { s.host with lqs := t.host.lqs }, fresh := t.fresh }
     let b := Config.boot s.fresh
     let runs := bootCheck b.fw b.sig
     let d : BitVec 4 := if runs = true then b.dom else 0
     (∃ t, exec (.doorbell q v) s = .next t ∧
       Queue { l with tail := v.truncate 32, err := l.err || wrong (v.truncate 32) l.en l.log2n, seen := (t.lq q).seen } t ∧
       ((v.truncate 32 - l.tail).toNat ≤ 2 ^ l.log2n → ∀ i < (v.truncate 32 - l.tail).toNat,
         let a := l.slotIa (l.tail + BitVec.ofNat 32 i)
         ((t.lq q).seen.find? fun e => e.1 == a) = some (a, s.sideBytes .mem a 64))) ∧
     (∃ t, exec (.lqcfgWrite q v) s = .next t ∧ Queue { l with
       log2n := v.toNat % 32,
       en := v.getLsbD 8,
       err := (l.err && !v.getLsbD 9) || wrong l.tail (v.getLsbD 8) (v.toNat % 32) } t) ∧
     (∃ t, exec .packageReset s = .next t ∧ t = { State.reset with
       agenda := s.agenda, fresh := s.fresh + 1, regs := t.regs, host := t.host } ∧
       t.regs = { State.reset.regs with domain := d, members := t.regs.members } ∧
       t.host = { State.reset.host with firmware := runs, fwDigest := digestOf b.fw } ∧
       ∀ i < 16, t.regs.members.getLsbD i = ((runs && b.members.getLsbD i) || i == d.toNat)) ∧
     (∃ t, exec (.hostLinkTraining link width speed) s = .next t ∧
       t.host.links.getD link (0, 0) = (if width = 0 ∨ speed = 0 then (0, 0) else (min 16 width, min 7 speed)) ∧
       (∀ k, k ≠ link → t.host.links.getD k (0, 0) = s.host.links.getD k (0, 0)) ∧
       t = { s with host := { s.host with links := t.host.links } })) ∧
  (∀ (s : State) (q : Nat), q < 64 → s.serves q = true →
     let v := s.readSlot q
     let bs := v.command q
     let f := fieldAt bs
     let is' := fun op : Nat => fieldAt (s.command q) 0 1 = op ∧ s.errors.retiring = []
     let clean := fun flags : Nat => f 3 1 = 0 ∧ f 1 1 % 128 &&& (127 - flags) = 0 ∧ (f 2 1 = 0 ∨ f 0 1 = 1 ∨ f 0 1 = 5)
     let Ends := fun (i : Instr) (st r : Nat) (u : State) => exec i s = .next (u.finish q bs st r)
     let here := fun op : Nat => is' op ∧ (s.lq q).late = none ∧ f 0 1 = op
     let good := fun op : Nat => here op ∧ clean 0 ∧ f 8 8 % 16 = 0
     let h : BitVec 64 := BitVec.ofNat 64 (f 0x10 8)
     let ia := f 0x10 8
     let len := f 0x18 8
     let w := if f 0 1 = 3 ∧ len ≤ 2 ^ 26 then v.partLines ia len none else if f 0 1 = 7 then v.partLines ia 32 none else v
     let img := w.sideBytes .mem ia len
     let body := fieldAt img 0x2C 4
     let key : BitVec 64 := BitVec.ofNat 64 (fieldAt img body 8)
     let digest := digestOf (img.take body)
     let i : Image := ⟨0, key, digest, img.take body, 0, 1, w.tick⟩
     let signed := 64 ≤ len ∧ len ≤ 2 ^ 26 ∧ w.covered ia len false = true ∧ len = body + 3317 ∧ (Config.trustedKey key).isSome = true ∧
       signedBy key digest (img.drop (body + 8)) = true
     let checked := signed ∧ i.headerOk = true ∧ i.lastsOk = true ∧ (List.range i.loopCnt).all i.loopOk = true
     (∀ p ∈ [(Instr.nopCommand q, 0, 0), (.ctxCreate q, 1, 0), (.ctxDestroy q, 2, 1), (.imgLoad q, 3, 0), (.imgUnload q, 4, 0),
         (.launch q, 5, 1), (.pipeBind q, 6, 0), (.attest q, 7, 0)],
       (here p.2.1 → (¬ clean p.2.2 → Ends p.1 16 0 v) ∧ (clean p.2.2 → f 8 8 % 16 ≠ 0 → Ends p.1 25 0 v)) ∧
       (is' p.2.1 → (s.lq q).late = none → f 0 1 ≠ p.2.1 → exec p.1 s = .next v) ∧
       (∀ e, is' p.2.1 → (s.lq q).late = some e → exec p.1 s = .next (s.finish q e.1 e.2.1 e.2.2)) ∧
       (fieldAt (s.command q) 0 1 = p.2.1 → s.linesRetiring (linesOf [((s.lq q).slotIa (s.lq q).head, 64)]) = true →
         ∃ at', exec p.1 s = .next (s.modLq q fun l => { l with serveAt := some at' }))) ∧
     (8 ≤ f 0 1 → is' (fieldAt (s.command q) 0 1) → 8 ≤ fieldAt (s.command q) 0 1 → (s.lq q).late = none →
       Ends (.reservedCommand q) 16 0 v) ∧
     (good 0 → (w.liveCtx (f 4 4)).isSome = true → Ends (.nopCommand q) 0 0 w) ∧
     (good 0 → w.liveCtx (f 4 4) = none → Ends (.nopCommand q) 17 0 w) ∧
     (good 3 → (len < 64 ∨ 2 ^ 26 < len) → Ends (.imgLoad q) 1 0 w) ∧
     (good 3 → 64 ≤ len → len ≤ 2 ^ 26 →
       (w.covered ia len false = false → Ends (.imgLoad q) 25 0 w) ∧
       (w.covered ia len false = true → len ≠ body + 3317 → Ends (.imgLoad q) 1 0 w) ∧
       (w.covered ia len false = true → len = body + 3317 → Config.trustedKey key = none → Ends (.imgLoad q) 2 0 w) ∧
       (w.covered ia len false = true → len = body + 3317 → (Config.trustedKey key).isSome = true →
         signedBy key digest (img.drop (body + 8)) = false → Ends (.imgLoad q) 3 0 w)) ∧
     (good 3 → signed → i.headerOk = false → Ends (.imgLoad q) 4 0 w) ∧
     (good 3 → signed → i.headerOk = true → i.lastsOk = false → Ends (.imgLoad q) 5 0 w) ∧
     (good 3 → signed → i.headerOk = true → i.lastsOk = true → (List.range i.loopCnt).all i.loopOk = false → Ends (.imgLoad q) 6 0 w) ∧
     (∀ j, good 3 → checked → w.work.images.find? (fun k => k.digest == digest) = some j → ∃ u, Ends (.imgLoad q) 0 j.handle.toNat u ∧
       u = { w with work := { w.work with images := u.work.images } } ∧
       u.work.images = w.work.images.map fun k => if k.handle == j.handle then { k with refs := k.refs + 1 } else k) ∧
     (good 3 → checked → w.work.images.find? (fun k => k.digest == digest) = none → w.codePlace body = none → Ends (.imgLoad q) 7 0 w) ∧
     (∀ a, good 3 → checked → w.work.images.find? (fun k => k.digest == digest) = none → w.codePlace body = some a →
       ∃ (g : BitVec 64) (u : State), Ends (.imgLoad q) 0 g.toNat u ∧ u.work.images = w.work.images ++ [{ i with handle := g, addr := a }] ∧
         u.work.used = g :: w.work.used ∧ (w.work.used.length < 2 ^ 63 → g ≠ 0 ∧ g ∉ w.work.used) ∧
         u = { w with work := { w.work with images := u.work.images, used := u.work.used }, fresh := w.fresh + 1 }) ∧
     (good 4 → w.image? h = none → Ends (.imgUnload q) 22 0 w) ∧
     (∀ j, good 4 → w.image? h = some j → j.refs = 0 → Ends (.imgUnload q) 26 0 w) ∧
     (∀ j, good 4 → w.image? h = some j → 1 ≤ j.refs → ∃ u, Ends (.imgUnload q) 0 0 u ∧
       u = { w with work := { w.work with images := u.work.images } } ∧
       ((2 ≤ j.refs ∨ w.work.kernels.any (fun k => k.image == h) = true) → u.image? h = some { j with refs := j.refs - 1 })) ∧
     (good 7 → w.covered ia 32 false = false → Ends (.attest q) 25 0 w) ∧
     (good 7 → w.covered ia 32 false = true →
       let rep := w.report (w.sideBytes .mem ia 32)
       ((f 0x20 8 < rep.length ∨ w.covered len rep.length true = false) → Ends (.attest q) 25 0 w) ∧
       (rep.length ≤ f 0x20 8 → w.covered len rep.length true = true → Ends (.attest q) 0 rep.length (w.partPut len w.fwOwner rep))) ∧
     (∀ st r, s.errors.retiring = [] → let t := s.finish q bs st r
       (t.lq q).head = (s.lq q).head + 1 ∧ (t.lq q).blocked = false ∧ (∀ p, p ≠ q → t.lq p = s.lq p) ∧
       (f 8 8 = 0 ∨ s.Calm → t.cores = s.cores) ∧ (f 8 8 = 0 → t.dram = s.dram) ∧
       (f 1 1 < 128 → f 8 8 = 0 ∨ s.Calm → t.host.msix = s.host.msix) ∧
       (128 ≤ f 1 1 → f 8 8 = 0 ∨ s.Calm → t.host.msix = (1, q) :: (0, q) :: s.host.msix) ∧
       (∀ o, f 8 8 % 16 = 0 → f 8 8 ≠ 0 → s.Calm → s.dram.wf = true → s.PlainAt (f 8 8) o 16 → t.dram.bytes o 16 =
         toLe 8 (st + f 0 1 * 2 ^ 16 + (s.lq q).head.toNat * 2 ^ 32) ++ toLe 8 (if st = 0 then r else 0) ∧
         ∀ a, (a < o ∨ o + 16 ≤ a) → s.NoCount a → t.dram.read a = s.dram.read a)))

/-- R65 to R68, R50, R84, R161: the commands that act on contexts and kernels. CTX_CREATE makes a context under a free number
with what its fields say; CTX_DESTROY ends one; LAUNCH and KLAUNCH put a kernel on the ready list of its priority; PIPE_BIND
binds a pipeline of stages. One whose context is not alive is a NO_CONTEXT. That LAST_BUSY is judged by the image's lasts
before the patch, that the patched last is not held, and what a last of RANK 0 takes are log 27; what KLAUNCH's read sees of
other cores' writes is log 34, and that it is answered by its last tick as it stands is log 19; which free pipeline slot a
bind takes is log 25. `w` is the machine once the command has been read. -/
def Obligations.ContextsAndLaunches : Prop :=
  ∀ (s : State) (q n a : Nat), q < 64 → s.serves q = true → s.errors.retiring = [] → (s.lq q).late = none →
    let v := s.readSlot q
    let bs := v.command q
    let f := fieldAt bs
    let w := if f 0 1 = 1 then v.partLines (f 0x10 8) 512 none
      else if f 0 1 = 6 then (bindReads bs v).foldl (fun (s : State) r => s.partLines r.1 r.2 none) v else v
    let good := fun op flags : Nat => fieldAt (s.command q) 0 1 = op ∧ f 0 1 = op ∧ f 8 8 % 16 = 0 ∧ f 3 1 = 0 ∧ f 1 1 % 128 &&& (127 - flags) = 0 ∧
      (f 2 1 = 0 ∨ op = 1 ∨ op = 5)
    let Ends := fun (i : Instr) (st r : Nat) (u : State) => exec i s = .next (u.finish q bs st r)
    let live := w.liveCtx (f 4 4)
    let rs := (List.range 16).map (rangeImage (w.sideBytes .mem (f 0x10 8) 512))
    let maxRods := f 0x38 1
    let roomy := f 0x39 1 = 0 ∧ f 0x3C 4 = 0 ∧ f 2 1 ≤ 7 ∧ 1 ≤ maxRods ∧ maxRods ≤ 64 ∧
      w.covered (f 0x10 8) 512 false = true ∧ rangesOk rs = true ∧
      maxRods * 4 * recordBytes ≤ f 0x20 8 ∧ w.covered (f 0x18 8) (f 0x20 8) true = true ∧
      (∀ p ∈ w.localPages (f 0x18 8) (f 0x20 8), w.mapWord1 p % 65536 ≠ 65535) ∧
      f 0x28 8 % 64 = 0 ∧ w.covered (f 0x28 8) 256 true = true ∧ 1 ≤ f 0x30 8 ∧ f 0x30 8 < 2 ^ 48 ∧
      ((w.work.ctxs.toList.filter fun c => !c.free).map (·.pqQuota)).sum + f 0x3A 2 ≤ 65536
    let c := w.ctx a
    let rods := f 0x28 2
    (∀ p ∈ [(Instr.ctxDestroy q, 2, 1), (.launch q, 5, 1), (.pipeBind q, 6, 0)], good p.2.1 p.2.2 → live = none → Ends p.1 17 0 w) ∧
    (good 1 0 → (f 0x39 1 ≠ 0 ∨ f 0x3C 4 ≠ 0) → Ends (.ctxCreate q) 16 0 w) ∧
    (good 1 0 → f 0x39 1 = 0 → f 0x3C 4 = 0 → (∀ b < 512, (w.ctx b).free = false) → Ends (.ctxCreate q) 18 0 w) ∧
    (good 1 0 → roomy → w.Calm → (∃ b < 512, (w.ctx b).free = true) → ∃ b u, b < 512 ∧ (w.ctx b).free = true ∧
      Ends (.ctxCreate q) 0 (u.ctxNum b) u ∧ u.ctx b =
        { gen := ((w.ctx b).gen + 1) % 2 ^ 23, live := true, free := false,
          ranges := Vector.ofFn fun i => (rangeImage (w.sideBytes .mem (f 0x10 8) 512) i.val).1,
          saveIa := f 0x18 8, saveLen := f 0x20 8, acctIa := f 0x28 8, wdog := f 0x30 8, maxRods := maxRods, pqQuota := f 0x3A 2,
          prioMax := f 2 1 } ∧
      (∀ b', b' ≠ b → u.ctx b' = w.ctx b') ∧ (w.Calm → u.cores = w.cores)) ∧
    (good 2 1 → live = some a → f 1 1 % 2 = 0 → w.kernelsOf a ≠ [] → Ends (.ctxDestroy q) 24 0 w) ∧
    (good 2 1 → live = some a → (f 1 1 % 2 = 1 ∨ w.kernelsOf a = []) → ∃ t, exec (.ctxDestroy q) s = .next t ∧
      (t.ctx a).ending = true ∧ (w.kernelsOf a = [] → w.errors.retiring = [] → (t.lq q).head = (s.lq q).head + 1) ∧
      (w.kernelsOf a ≠ [] → (t.lq q).head = (s.lq q).head ∧ (t.lq q).blocked = true ∧ (t.ctx a).destroyQ = some (q, bs))) ∧
    (good 5 1 → live = some a → f 0x2C 4 = 0 → w.image? (BitVec.ofNat 64 (f 0x10 8)) = none → Ends (.launch q) 22 0 w) ∧
    (∀ i, good 5 1 → live = some a → f 0x2C 4 = 0 → w.image? (BitVec.ofNat 64 (f 0x10 8)) = some i →
      let most := min (min 64 c.maxRods) (if f 0x2A 1 = 1 ∨ f 0x2A 1 = 2 then 32 else 64)
      let own := i.lastEntries
      let pl := f 0x2B 1
      let old := ((own.find? fun e => e.1 == pl).map (·.2)).getD (c.lasts.getD pl 0)
      let new : Last := (old &&& ~~~(BitVec.ofNat 512 ((2 ^ 128 - 1) * 2 ^ 64))) |||
        BitVec.ofNat 512 (f 0x30 8 * 2 ^ 64 + f 0x38 8 * 2 ^ 128)
      let es := if f 1 1 % 2 = 1 then (own.filter fun e => e.1 != pl) ++ [(pl, new)] else own
      ((rods < i.minRods ∨ most < rods) → Ends (.launch q) 21 0 w) ∧
      (i.minRods ≤ rods → rods ≤ most → f 0x2A 1 ≤ 2 → f 2 1 ≤ c.prioMax → (f 1 1 % 2 = 1 → pl ≤ 63) →
        (4 * rods * i.argBytes = 0 ∨ (w.argIa a (f 0x18 8) (4 * rods * i.argBytes) false).isSome = true) →
        (i.dataSize = 0 ∨ (w.argIa a (f 0x20 8) i.dataSize true).isSome = true) →
        (w.lastsBusy a own = true → Ends (.launch q) 19 0 w) ∧
        (w.lastsBusy a own = false → (f 1 1 % 2 = 1 → Last.patch old = true ∧ new.imageOk = true) →
          ((∃ e ∈ es, e.2.place c i.spadBytes = none) → Ends (.launch q) 20 0 w) ∧
          ((∀ e ∈ es, (e.2.place c i.spadBytes).isSome = true) →
            ∃ k u, Ends (.launch q) 0 k.num u ∧ u.work.kernels = w.work.kernels ++ [k] ∧ (w.Calm → u.cores = w.cores) ∧
              k.st = .ready ∧ k.asid = a ∧ k.image = BitVec.ofNat 64 (f 0x10 8) ∧ k.prio = f 2 1 ∧ k.eff = f 2 1 ∧ k.nrods = rods ∧
              k.dies = f 0x2A 1 ∧ k.argVa = f 0x18 8 ∧ k.readyTick = w.tick ∧ k.order = (q, (s.lq q).head.toNat) ∧ k.stage = none ∧
              k.lasts = own.map (·.1))))) ∧
    (∀ ia ia2 ety stages s1 found slot, good 6 0 → live = some a →
      let h := fieldAt (w.sideBytes .mem ia 32)
      let m := h 1 1
      let ds := w.sideBytes .mem ia2 (32 + 16 * m)
      let g := fieldAt ds
      let sl : Last := (s1.ctx a).lasts.getD (g 0 1) 0
      let src := (sourceHandle sl, ety, g 8 4)
      let hs := stages.map fun d => (d, s1.stageHandle a d.image)
      let join := match found.head?.bind s1.entry? with
        | some l => l.cons + s1.consPending l.kernel
        | none => g 0x10 8
      let behind := !found.isEmpty && decide (g 0x10 8 < join)
      let res := (if behind then 2 ^ 61 else 0) + found.length * 2 ^ 56 + slot * 2 ^ 48 + join % 2 ^ 48
      w.argIa a (f 0x10 8) 32 false = some ia → 1 ≤ m → m ≤ 16 → h 0 1 ≤ 63 → h 2 1 < 16 → h 3 5 = 0 → 1 ≤ h 8 4 → h 8 4 ≤ 2 ^ 20 →
      h 12 4 = 0 → h 0x10 8 < 2 ^ 48 → h 0x18 8 = 0 → Last.src (c.lasts.getD (h 0 1) 0) = true →
      w.argIa a (f 0x10 8) (32 + 16 * m) false = some ia2 → ElemTy.ofCode (BitVec.ofNat 4 (g 2 1)) = some ety →
      w.stageDescs ds m 0 ety (g 8 4) = some stages → w.bindLasts a stages [] = (0, s1) →
      s1.matchStages src (hs.take (m - 1)) 0 [] = some found →
      (behind = true → sl.replay = false → Ends (.pipeBind q) 29 0 w) ∧
      ((behind = true → sl.replay = true) → w.work.pipes.toList.findIdx? (·.isNone) = some slot →
        m - found.length + (if behind then found.length else 0) ≤ (w.work.lace.toList.filter (·.isNone)).length →
        (∀ d ∈ (if behind = true then stages else stages.drop found.length), d.image.minRods ≤ c.maxRods) →
        ∃ u p, Ends (.pipeBind q) 0 res u ∧ (w.Calm → u.cores = w.cores) ∧ u.work.binds = w.work.binds + 1 ∧
          u.work.pipes.getD slot none = some p ∧ p.asid = a ∧ p.bound = w.work.binds ∧ p.srcLast = g 0 1 ∧ p.join = join ∧
          p.start = g 0x10 8 ∧ p.path.take found.length = found.reverse ∧
          ∀ j, j ≠ slot → u.work.pipes.getD j none = w.work.pipes.getD j none)) ∧
    (∀ k, n < 256 → (s.core n).seq.klaunch.find? (fun k => k.result.isNone) = some k →
      let id := (s.core n).uid
      let p := (s.pump n).force n id
      let ready := k.till ≤ p.tick ∧ p.klaunchWaits n k = false ∧ (p.ringTurn n id = true ∨ k.last ≤ p.tick)
      let u := p.seeFence n id
      let r := u.klaunchReply n k
      (¬ ready → exec (.klaunchAccept n) s = .next p) ∧
      (ready → ∃ t, exec (.klaunchAccept n) s = .next t ∧
        (t.core n).seq.klaunch = (r.2.2.core n).seq.klaunch.map (fun e =>
          if e.slot = k.slot then { e with result := some (BitVec.ofNat 64 (r.1 + (if r.1 = 0 then r.2.1 * 2 ^ 32 else 0))) } else e)) ∧
      (k.va.toNat % 64 ≠ 0 → r = (25, 0, u)) ∧
      (∀ l b, k.va.toNat % 64 = 0 → u.resolve n k.va.toNat 64 true false true = some l →
        let y := match l with
          | .dram _ ia _ => u.partLines ia 64 none
          | _ => u
        (y.locPoisoned l = true → r.1 = 16 ∧ r.2.1 = 0) ∧
        (y.locPoisoned l = false → ∃ (cmd : List Byte) (x : State), cmd.length = 64 ∧
          (∀ i < 64, cmd.getD i 0 = (y.locBytes l 64).getD i 0 ∨ ∃ e ∈ y.past, e.key = l.key + i ∧
            max (y.core n).view y.seen ≤ e.serial ∧ cmd.getD i 0 = e.old) ∧
          (fieldAt cmd 0 1 = 5 → fieldAt cmd 3 1 = 0 → fieldAt cmd 1 1 % 128 &&& 126 = 0 → fieldAt cmd 4 4 = 0 → x.asidOf n = some b →
            (x.ctx b).ending = false → r = x.launch b cmd (64, 0)) ∧
          (u.Calm → x.work = u.work))))

/-- R71 to R73, R79, R81, R162: a waiting kernel's priority rises; the head is placed once enough rods are free for it, on as
many of them as it asks for, which count down their placement cycles, once they have made their changes (log 26); otherwise
no register changes, and nothing where there is no victim; the rods of a victim, which holds some on the head's dies (log
28), are reserved for the head; a kernel whose quantum has ended gets another, and one whose rods a head of its own priority
needs is to be saved. -/
def Obligations.Scheduling : Prop :=
  ∀ (s : State) (n : Nat) (k : Kernel), s.kernel? n = some k →
    (s.agingDue k = true → ∃ t, exec (.priorityAging n) s = .next t ∧ t.kernel? n = some { k with eff := k.eff + 1 } ∧
      t = { s with work := { s.work with kernels := t.work.kernels } }) ∧
    (s.headKernel = some k → k.nrods ≤ (s.freeFor k).length →
      (∀ r ∈ chooseRods (s.freeFor k) k.dies k.nrods, (s.rod r).pm.state ≠ .on ∨
        ((s.rod r).clk.change = none ∧ (s.rod r).clk.point = s.target r)) → ∃ t rods, exec .kernelPlacement s = .next t ∧
      (∀ r ∈ rods, r ∈ s.freeFor k) ∧ rods.length = k.nrods ∧ rods.Nodup ∧
      (t.kernel? n).map (·.rods) = some rods ∧ (t.kernel? n).map (·.st) = some .placed ∧
      (t.kernel? n).map (·.quantum) = some (s.tick + 140000) ∧
      (∀ r ∈ rods, (t.rod r).kernel = some n ∧ (t.rod r).placeLeft = 129 ∧
        ((s.rod r).pm.state = .on → (t.rod r).clk.point = (s.rod r).clk.point ∧ (t.rod r).clk.change = none) ∧
        ((s.rod r).pm.state = .clockGated ∨ (s.rod r).pm.state = .hold → (t.rod r).clk.point = 5 ∧ (t.rod r).clk.change = none))) ∧
    (s.headKernel = some k → (s.freeFor k).length < k.nrods → ∃ t, exec .kernelPlacement s = .next t ∧
      (s.victims k = [] → t = s) ∧ (∀ m, (t.core m).arch = (s.core m).arch) ∧
      ∀ v ∈ s.victims k, s.kernel? v.num = some v → (t.kernel? v.num).map (·.stop) = some (some .save) ∧
        (∃ r ∈ v.rods, dieAllowed k.dies (r / 32) = true) ∧ v.prio < k.eff ∧
        ∀ r ∈ v.rods, r < 64 → (s.rod r).reserved = none → (t.rod r).reserved = some n) ∧
    (s.quantumDue k = true → s.headKernel = none → ∃ t, exec (.quantumExpiry n) s = .next t ∧
      t.kernel? n = some { k with quantum := s.tick + 140000, yielded := none } ∧
      t = { s with work := { s.work with kernels := t.work.kernels } }) ∧
    (∀ h, s.quantumDue k = true → s.headKernel = some h → (h.eff ≠ k.prio ∨ h.nrods ≤ (s.freeFor h).length) →
      ∃ t, exec (.quantumExpiry n) s = .next t ∧ t.kernel? n = some { k with quantum := s.tick + 140000, yielded := none }) ∧
    (∀ h, s.quantumDue k = true → s.headKernel = some h → h.eff = k.prio → (s.freeFor h).length < h.nrods →
      k.rods.any (fun r => dieAllowed h.dies (r / 32)) = true →
      ∃ t, exec (.quantumExpiry n) s = .next t ∧ (t.kernel? n).map (·.stop) = some (some .save))

/-- R370, R373, R374, R377, R383: the pending class with the lowest code is taken at a boundary, and the address of the next
bundle is the return address, while no class that the next bundle raises has a lower code; a watchdog that falls due becomes
pending, or ends the context from privileged mode; PET starts its count again, and a write of TEND ends the core's context
with the status written. That FENCEs are held aside at entry is log 19; the pre-emption that is requested when a trap is
taken, taken after the return, is log 29. R384, R380: HALT stops a core at once where it can halt, and otherwise stays
pending; STEP and RESUME let a halted one go on; SNAP writes the core's record, STATE and SAVETICK first, and keeps what it
holds; LOAD takes it back: registers, tiles, scratchpad, resolve state, and the operations that were not accepted, offered
again, while what the engines are running goes on (log 29; that the record's own bytes are free and that software does not
write it is log 28). None of them changes a register but LOAD. -/
def Obligations.BoundaryTrapsAndDebug : Prop :=
  (∀ (s : State) (n : Nat) (v : BitVec 64), n < 256 →
     let c := s.core n
     (∀ e, s.nextTrap n = some e → e.1 ≠ 0 →
       e ∈ c.seq.pendTraps ∧ (∀ p ∈ c.seq.pendTraps, e.1 ≤ p.1) ∧ ∃ u t, exec (.trapEntry n) s = .next t ∧
         OnlyCore n s u ∧ u.core n = { c with dbg := (u.core n).dbg, seq := { c.seq with pendTraps := c.seq.pendTraps.erase e, klaunch := [] } } ∧
         TrapEntered n u t e.1 e.2 c.arch.pc) ∧
     (∀ e ∈ c.seq.pendTraps, s.atBoundary n = true → c.arch.priv = false → (∀ p ∈ c.seq.pendTraps, e.1 ≤ p.1) →
       (∀ k, s.nextClass n = some k → e.1 ≤ k) → (s.nextTrap n).map (·.1) = some e.1) ∧
     (∀ k, s.nextClass n = some k → (∀ p ∈ c.seq.pendTraps, k < p.1 ∧ (p.1 < 4 ∨ 6 < p.1)) → s.nextTrap n = none) ∧
     (∀ d, s.watchdogDetail n = some d → c.arch.priv = false → ∃ t, exec (.watchdog n) s = .next t ∧ OnlyCore n s t ∧
       t.core n = { c with
         unit := { c.unit with overrun := c.unit.overrun || d != 0 },
         seq := { c.seq with pendTraps := c.seq.pendTraps ++ [(7, BitVec.ofNat 64 d)] } }) ∧
     (∀ d asid, s.watchdogDetail n = some d → c.arch.priv = true → s.asidOf n = some asid → asid < 512 → (s.ctx asid).live = true →
       ∃ t, exec (.watchdog n) s = .next t ∧ (t.ctx asid).ending = true) ∧
     (∀ asid, s.asidOf n = some asid → (s.ctx asid).wdog ≤ c.unit.wdog → (7, 0) ∉ c.seq.pendTraps → s.watchdogDetail n = some 0) ∧
     (∃ t, exec (.pet n) s = .next t ∧ OnlyCore n s t ∧ t.core n = { c with unit := { c.unit with wdog := 0 } }) ∧
     (∀ asid, s.asidOf n = some asid → asid < 512 → (s.ctx asid).live = true → (s.ctx asid).ending = false →
       ∃ t, exec (.tendWrite n v) s = .next t ∧ (t.ctx asid).ending = true ∧
         (t.status asid).ctxend = ((s.status asid).ctxend &&& 0x2000000000000000#64) ||| 0x8000000000000000#64 |||
           BitVec.ofNat 64 (n * 2 ^ 24 + 2 * 2 ^ 16 + v.toNat % 2 ^ 16) ∧
         (t.core n).arch = c.arch)) ∧
  (∀ (s : State) (n : Nat), n < 256 →
     let c := s.core n
     let d := c.dbg
     let Debug := fun (i : Instr) (e : Dbg) => ∃ t, exec i s = .next t ∧ OnlyCore n s t ∧ t.core n = { c with dbg := e }
     let why := if d.pend = 0 then 1 else d.pend
     (d.halted = false → s.canHalt n = true → Debug (.debugHalt n) { d with halted := true, why := why, pend := 0, later := false }) ∧
     (d.halted = false → s.canHalt n = false → Debug (.debugHalt n)
       { d with pend := why, later := d.later || (s.nextTrap n).isSome }) ∧
     (d.halted = true → Debug (.debugStep n) { d with halted := false, why := 0, step := true }) ∧
     (d.halted = true → Debug (.debugResume n) { d with halted := false, why := 0 }) ∧
     (∀ k, d.halted = true → s.kernelOf n = some k → ∃ t, exec (.debugSnap n) s = .next t ∧ t.cores = s.cores ∧
       (t.kernel? k.num).map (fun q => q.saved.getD c.unit.idx {}) = some c.landAll ∧
       let ia := s.recordIa n
       ∀ o, s.Calm → s.dram.wf = true → ia % 64 = 0 → s.PlainAt ia o c.saveBytes →
         t.ia64 ia = recordState true false c.unit.ended true ∧ t.ia64 (ia + 8) = s.tick % 2 ^ 64 ∧
         ∀ b, (b < o ∨ o + c.saveBytes ≤ b) → s.NoCount b → t.dram.read b = s.dram.read b) ∧
     (∀ k r, d.halted = true → s.kernelOf n = some k → k.saved[c.unit.idx]? = some r → r.unit.kernel.isSome = true →
       let busy := fun o : EngOp => o.accepted = true ∨ s.matched (s.refOf n) o.id = true
       let mine := fun i : Nat => (∃ o ∈ c.eng.eng, busy o ∧ o.id = i) ∨ ∃ m ∈ c.eng.mrun, m.id = i
       ∃ t, exec (.debugLoad n) s = .next t ∧ t = { s with cores := t.cores, fabric := { s.fabric with chans := t.fabric.chans } } ∧
         (∀ m, m ≠ n → t.core m = s.core m) ∧ (t.core n).spad = r.spad ∧ (t.core n).dbg = d ∧
         (t.core n).arch = { r.arch with ops := (t.core n).arch.ops } ∧
         (let e := (t.core n).eng
          e = { c.eng with resolve := r.eng.resolve, mq := e.mq, eng := e.eng, probes := e.probes, aside := e.aside,
                           probeCmd := r.eng.probeCmd, ilk := e.ilk } ∧
          (∀ o, o ∈ e.eng ↔ (o ∈ c.eng.eng ∧ busy o) ∨ ∃ q ∈ r.eng.eng, q.accepted = false ∧ ¬ mine q.id ∧
            o = if (∃ g, q.kind = .marker g) then q else { q with aux := 0 }) ∧
          (∀ m, m ∈ e.mq ↔ ∃ q ∈ r.eng.mq, ¬ mine q.id ∧ m = { q with issued := c.cyc }) ∧
          e.probes = r.eng.probes.map (fun p => { p with accepted := false }) ∧
          ∀ p ∈ (t.core n).arch.ops, ((∃ m ∈ e.mq, m.id = p.id) ∨ (∃ q ∈ e.probes, q.id = p.id)) →
            (∃ q ∈ r.arch.ops, q.id = p.id) → p.st = .unpromised ∧ p.promise = none)))

/-- R55, R69, R78, R208, R378 to R382: the last placement cycle of a rod ends with window 0 beginning; the cores of a persistent
program stand at its entry with a watchdog of 0, those of a kernel at its first loop record, and the saved ones wait for
their restore. A core that takes its pre-emption lands its results in 24 cycles, drains, is saved, and keeps its registers:
its record begins with STATE and SAVETICK; one restored runs again with its copies first in its engines' order. That it
waits for the other cores of its rod, and that window 0 and the watchdog start then, are log 28, as are the free bytes of a
record. -/
def Obligations.PlacementAndPreemption : Prop :=
  ∀ (s : State) (n r : Nat), n < 256 → r < 64 →
    let c := s.core n
    let Runs := fun (i : Instr) (p : PrePhase) => ∃ t, exec i s = .next t ∧ (t.core n).seq.pre = p ∧ (t.core n).arch.pc = c.arch.pc ∧
      (∀ x, (t.core n).settledX x = c.settledX x) ∧ (t.core n).spad = c.spad
    ((s.rod r).placeLeft = 1 → (s.rod r).kernel = none → ∃ t, exec (.placementEnd r) s = .next t ∧ OnlyRod r s t ∧
      t.rod r = { s.rod r with placeLeft := 0, clk := (s.rod r).clk.windowZero }) ∧
    (∀ k q i, (s.rod r).placeLeft = 1 → (s.rod r).kernel = some k → s.kernel? k = some q → s.image? q.image = some i → s.Calm →
      ∃ t, exec (.placementEnd r) s = .next t ∧
        (let R := fun p => { s.rod p with slice := { (s.rod p).slice with lines := (t.rod p).slice.lines } }
         t.rod r = { R r with placeLeft := 0, clk := (s.rod r).clk.windowZero } ∧ ∀ p, p ≠ r → t.rod p = R p) ∧
        ∀ m ∈ coresOf r,
          ((s.core m).isSaved = true → (t.core m).seq.pre = .loadRate ∧ (t.core m).arch = (s.core m).arch) ∧
          ((s.core m).isSaved = false → i.persistent = true → (t.core m).unit.wdog = 0 ∧
            (t.core m).arch = { (s.core m).arch with pc := codeAt (i.le 0x1C 4) }) ∧
          (let l := i.loopRec 0
           (s.core m).isSaved = false → i.persistent = false → 0 < i.loopCnt → l.triparg = false → l.trip ≠ 0 → l.stages ≤ l.trip + 1 →
            l.pro ≠ l.ker → (t.core m).unit.wdog = 0 ∧ (t.core m).unit.sec = 0 ∧
            (t.core m).arch = { (s.core m).arch with pc := codeAt l.pro })) ∧
    (s.pointDue n = true → ∀ k, c.seq.pre = .requested k → Runs (.preemptionPoint n) (.landing k 24)) ∧
    (∀ k, c.seq.pre = .landing k 0 → Runs (.preemptionPoint n) (.draining k)) ∧
    (s.pointDue n = true → c.seq.pre = .draining .save → (s.moveRate n true).1 < 8 → Runs (.preemptionPoint n) (.waitRate .save)) ∧
    (s.pointDue n = true → (c.seq.pre = .draining .save ∨ c.seq.pre = .waitRate .save) → 8 ≤ (s.moveRate n true).1 →
      Runs (.preemptionPoint n) (.saving .save (s.tick + (s.moveRate n true).2))) ∧
    (s.pointDue n = true → ∀ k, k ≠ .save → c.seq.pre = .draining k → Runs (.preemptionPoint n) (.saving k s.tick)) ∧
    (∀ k till q, c.seq.pre = .saving k till → till ≤ s.tick → s.errors.retiring = [] → s.kernelOf n = some q →
      (∃ m ∈ q.cores, m ≠ n ∧ (s.core m).isSaved = false) →
      Runs (.saveComplete n) (.saved k) ∧ ∃ t, exec (.saveComplete n) s = .next t ∧ (k = .save → (t.core n).acct.held = 0 ∧
        let ia := s.recordIa n
        ∀ o x a, s.Calm → s.dram.wf = true → c.flaw = none → c.acct.acs.en = false → ia % 64 = 0 → s.PlainAt ia o c.saveBytes →
          s.acctIa (s.asidOf n) = some x → s.PlainAt x a 0x98 → (a + 0x98 ≤ o ∨ o + c.saveBytes ≤ a) →
          t.ia64 ia = recordState true false c.unit.ended true ∧ t.ia64 (ia + 8) = s.tick % 2 ^ 64 ∧
          ∀ b, (b < o ∨ o + c.saveBytes ≤ b) → (b < a ∨ a + 0x98 ≤ b) → s.NoCount b → t.dram.read b = s.dram.read b)) ∧
    (∀ till q, c.seq.pre = .saving .save till → till ≤ s.tick → s.errors.retiring = [] → s.kernelOf n = some q → q.stop = some .save →
      q.transferDue = false → c.flaw ≠ some true → (∀ m ∈ q.cores, m ≠ n → (s.core m).isSaved = true) → (s.ctx q.asid).ending = false →
      ∃ t k, exec (.saveComplete n) s = .next t ∧ t.kernel? q.num = some k ∧ k.st = .ready ∧ k.rods = [] ∧ k.stop = none ∧
        k.suspended = true ∧ k.saved.length = q.cores.length ∧ ∀ p ∈ q.rods, (t.rod p).kernel = none) ∧
    (c.seq.pre = .loadRate → 8 ≤ (s.moveRate n false).1 →
      Runs (.restoreComplete n) (.loading (s.tick + (s.moveRate n false).2))) ∧
    (∀ till q, c.seq.pre = .loading till → till ≤ s.tick → s.errors.poison = [] → s.errors.planted = [] → s.errors.retiring = [] →
      (∀ p < 64, ∀ l ∈ (s.rod p).slice.lines, l.poison = false) → s.kernelOf n = some q →
      let rod := coresOf (n / 4)
      ((∃ m ∈ rod, m ≠ n ∧ (s.core m).restoring = true ∧ (s.core m).seq.pre ≠ .restored) → Runs (.restoreComplete n) .restored) ∧
      ((∀ m ∈ rod, m ≠ n → (s.core m).restoring = true → (s.core m).seq.pre = .restored) →
        let next := match q.stop with
          | some k => PrePhase.requested k
          | none => .running
        Runs (.restoreComplete n) next ∧ ∃ t, exec (.restoreComplete n) s = .next t ∧ (∀ m ∈ rod, (t.core m).seq.pre = next ∧
            (t.core m).eng.eng = (s.core m).eng.eng.filter EngOp.isCopy ++ (s.core m).eng.eng.filter fun o => !o.isCopy) ∧
          (t.rod (n / 4)).clk = (s.rod (n / 4)).clk.windowZero))

/-- R402 to R406, R387, R91: a kernel that is done retires once no accepted operation of it is left: it leaves the tables, its
rods are free, its cores idle with their counters written back, the RWAITs of other cores on the rings of its rods are
refused NO_RING, and its context's count rises; what its engines have not accepted is withdrawn first. The final accounts of
a context store FINAL in its account area and its status entry and give its number back, with its rings and its entries of
the priority queues. -/
def Obligations.RetirementAndAccounts : Prop :=
  ∀ (s : State) (n asid : Nat), asid < 512 →
    (∀ k, s.kernel? n = some k → s.kernelDone k = true → k.allCores.any s.withdrawDue = false → k.allCores.any s.acceptedLeft = false →
      (∀ c ∈ k.allCores, (s.coreAt c).eng.aside = []) → k.asid < 512 → ∃ t, exec (.kernelRetire n) s = .next t ∧ t.kernel? n = none ∧
        (t.status k.asid).ctxst0 = (s.status k.asid).ctxst0 + 0x100000000#64 ∧
        (k.st = .placed → (∀ r ∈ k.rods, (t.rod r).kernel = none) ∧ (∀ c ∈ k.cores, (t.core c).unit.kernel = none ∧
            (t.core c).acct.live = Vector.replicate 16 0 ∧ (t.core c).acct.held = 0) ∧
          ∀ (ring : BitVec 8) g m o, s.fabric.rings.getD ring.toNat none = some g → g.slice ∈ k.rods → m < 256 → m ∉ k.cores →
            s.asidAt m = some g.asid → o ∈ (s.core m).eng.eng → o.kind = .rwait ring → t.eng? m o.id = none)) ∧
    (∀ k, s.kernel? n = some k → k.st = .placed → s.kernelDone k = true → k.cores.any s.withdrawDue = true →
      ∃ t, exec (.kernelRetire n) s = .next t ∧ ∀ c ∈ k.cores, (t.core c).eng.mq = []) ∧
    (s.finalDue asid = true → ∃ t, exec (.finalAccounts asid) s = .next t ∧
      t.ctx asid = { s.ctx asid with live := false, free := true, ending := false } ∧
      (t.status asid).ctxend = (s.status asid).ctxend ||| 0x4000000000000000#64 ∧
      (∀ o, s.Calm → s.dram.wf = true → s.PlainAt ((s.ctx asid).acctIa + 0x98) o 8 → t.ia64 ((s.ctx asid).acctIa + 0x98) = 1) ∧
      (∀ i g, t.fabric.rings.getD i none = some g → g.asid ≠ asid) ∧
      (∀ d, ∀ e ∈ (t.die d).pq, e.asid ≠ asid) ∧
      (∀ i < 256, (t.chan i).en = true → (t.chan i).asid ≠ asid) ∧
      ∀ c < 256, (t.core c).settled.x = (s.core c).settled.x)

/-- R316, R318, R321, R323, R326, R328: binding a channel end empties it; unbinding one discards its queue and refuses what is
not accepted; the oldest request gets its grant, direct into the earliest posted RECV where the queue holds no message, else
as flits of the queue, and so does the oldest of another package; messages join the queue in their order, or land in the
RECV that they were granted to; a marker is counted, and OLDEST moves past a generation whose markers are all there. That
the requests and the grants of a core do not pass one another is log 24, the numbers above 16 by which another package's
requests come are log 1, and which of the grants of its size an arriving message of another package had is free (log 3). -/
def Obligations.ChannelEnds : Prop :=
  ∀ (s : State) (peer chan : Nat) (v : BitVec 64) (m : Message) (g : BitVec 8), peer < 16 → chan < 16 →
    let i := 16 * peer + chan
    let c := s.chan i
    let Chan := fun (ev : Instr) (u : State) (w : Machine.Chan) => ∃ t, exec ev s = .next t ∧ OnlyChan i u t ∧ t.chan i = w
    let marks := (g, c.marksOf g + 1) :: c.marks.filter fun e => e.1 != g
    let count := fun x : BitVec 8 => if x = g then c.marksOf g + 1 else c.marksOf x
    let u := { s with fresh := s.fresh + 1 }
    (c.en = false → Chan (.channelBind peer chan v) s { c with
      en := s.regs.members.getLsbD peer, generr := c.generr && !v.getLsbD 62, sources := v.toNat / 2 ^ 55 % 128, asid := v.toNat / 2 ^ 38 % 512,
      home := v.toNat / 2 ^ 30 % 256, oldest := 0, marks := [], queue := [] }) ∧
    (c.en = true → Chan (.channelBind peer chan v) s { c with generr := c.generr && !v.getLsbD 62 }) ∧
    (c.en = true → ∃ t, exec (.channelUnbind peer chan) s = .next t ∧ (t.chan i).en = false ∧ (t.chan i).queue = [] ∧
      ∀ n < 256, s.asidAt n = some c.asid → ∀ o ∈ (s.core n).eng.eng, s.opChan o = some i → o.accepted = false →
        s.matched (s.refOf n) o.id = false → t.eng? n o.id = none ∧ (s.refOf n, o.id) ∉ (t.chan i).posted) ∧
    (∀ r rest, s.ownChan i = true → s.canGrant i = true → c.reqs = r :: rest → ∃ due, s.tick ≤ due ∧
      (due < s.tick + 71 ∨ ∃ e ∈ c.grants, e.core = r.core ∧ e.arrives = due) ∧ (∀ e ∈ c.grants, e.core = r.core → e.arrives ≤ due) ∧
      (c.direct = true → Chan (.creditGrant peer chan) u { c with
        reqs := rest, posted := c.posted.tail,
        grants := c.grants ++ [⟨r.core, r.op, r.flits, c.posted.head?, due⟩] }) ∧
      (c.direct = false → Chan (.creditGrant peer chan) u { c with
        reqs := rest, granted := c.granted + r.flits, grants := c.grants ++ [⟨r.core, r.op, r.flits, none, due⟩] })) ∧
    (∀ r rest, s.ownChan i = false → c.reqs = r :: rest → Chan (.creditGrant peer chan) s { c with
      reqs := rest, grants := c.grants ++ [⟨r.core, r.op, r.flits, none, s.tick⟩] }) ∧
    (∀ w, s.ownChan i = false → 2 ≤ w → w < 65536 → Chan (.creditGrant peer (16 * w + chan)) s { c with asks := c.asks ++ [w] }) ∧
    (∀ w rest, s.ownChan i = false → c.asks = w :: rest → c.en = true →
      (c.direct = true → Chan (.creditGrant peer (16 + chan)) s
        { c with asks := rest, posted := c.posted.tail, inbound := c.inbound ++ [(w, c.posted.head?)] }) ∧
      (c.direct = false → w + c.used ≤ 128 → Chan (.creditGrant peer (16 + chan)) s
        { c with asks := rest, granted := c.granted + w, inbound := c.inbound ++ [(w, none)] }) ∧
      (c.direct = false → 128 < w + c.used → exec (.creditGrant peer (16 + chan)) s = .next s)) ∧
    (∀ w rest, s.ownChan i = true → c.wire = w :: rest → w.direct = none → w.arrives ≤ s.tick → c.en = true →
      c.inWindow w.msg.gen = true → ∃ t, exec (.messageArrival peer chan w.msg) s = .next t ∧
        t.chan i = { c with wire := rest, granted := c.granted - msgFlits w.msg, queue := c.queue ++ [(w.msg, false)] } ∧
        ∀ j, j ≠ i → t.chan j = s.chan j) ∧
    (∀ w rest rv o d x, s.ownChan i = true → c.wire = w :: rest → w.direct = some rv → w.arrives ≤ s.tick →
      (c.en = false ∨ c.inWindow w.msg.gen = true) → s.engAt? rv.1 rv.2 = some o → o.kind = .recv d x →
      s.recvReason rv.1 (s.lastAt rv.1 d) w.msg = 0 → ∃ t o', exec (.messageArrival peer chan w.msg) s = .next t ∧
        t.chan i = { c with wire := rest } ∧ t.engAt? rv.1 rv.2 = some o' ∧ o'.accepted = true ∧ o'.msg = some w.msg) ∧
    (s.ownChan i = false → (∀ e ∈ c.inbound, e.1 ≠ msgFlits m) → exec (.messageArrival peer chan m) s = .next s) ∧
    (∀ w, s.ownChan i = false → w = msgFlits m → (w, none) ∈ c.inbound → (∀ e ∈ c.inbound, e.1 = w → e.2 = none) →
      let got := { c with inbound := c.inbound.erase (w, none), granted := c.granted - w }
      (c.en = false → Chan (.messageArrival peer chan m) u got) ∧
      (c.en = true → c.inWindow m.gen = true → Chan (.messageArrival peer chan m) u { got with queue := c.queue ++ [(m, false)] }) ∧
      (c.en = true → c.inWindow m.gen = false → ∃ t, exec (.messageArrival peer chan m) s = .next t ∧
        t.chan i = { got with generr := true })) ∧
    (s.ownChan i = false → c.en = true → c.inWindow g = true → count c.oldest ≤ c.sources →
      Chan (.markerArrival peer chan g) s { c with marks := marks }) ∧
    (s.ownChan i = false → c.en = true → c.inWindow g = true → c.sources < count c.oldest → count (c.oldest + 1) ≤ c.sources →
      Chan (.markerArrival peer chan g) s { c with marks := marks.filter (fun e => e.1 != c.oldest), oldest := c.oldest + 1 })

/-- R320, R322, R323, R340: sends and receives. A send whose kin is complete is refused at its first failing check, or asks for
credit behind the earlier sends of its core to the channel, and is accepted once its grant is there; it completes when its
last flit has landed; its message holds the bytes of its source. A RECV is posted, takes the message at the head of the
queue, or is refused where that does not fit it, which consumes the message; it completes when the message has been written
as Table 17-7 says, of which a byte barrier may count a part first. The order of a core's requests, the wait behind earlier
sends and markers, and the landing in two ticks are log 24. -/
def Obligations.SendsAndReceives : Prop :=
  ∀ (s : State) (n op : Nat) (o : EngOp), n < 256 → s.eng? n op = some o →
    let c := s.core n
    let kinDone := c.arch.tokEnded o.kin = true
    let kinBad := c.arch.tokState o.kin = .refused
    let Refused := fun (ev : Instr) (why : Nat) => ∃ t, exec ev s = .next t ∧ OpRefused n op why s t
    (∀ q g d x, o.kind = .send q g d x → o.accepted = false → s.engGo n op = true → kinDone →
      let l := s.last n d
      let i := routeChan x
      let why := s.sendReason n q g l i
      let rho := s.rate n (s.sendUse n i l) l.elemBytes
      (o.aux = 0 → kinBad → Refused (.sendAccept n op) 1) ∧
      (o.aux = 0 → ¬ kinBad → why ≠ 0 → Refused (.sendAccept n op) why) ∧
      (o.aux = 0 → ¬ kinBad → why = 0 → ∃ t, exec (.sendAccept n op) s = .next t ∧ OnlyCore n s t ∧
        t.eng? n op = some { o with aux := 1 } ∧ (t.core n).arch = c.arch) ∧
      (o.aux = 1 → c.sendBehind op i 2 = false → ∃ t q', exec (.sendAccept n op) s = .next t ∧ t.eng? n op = some { o with aux := 2 } ∧
        q' ∈ (t.chan i).reqs ∧ q'.core = s.refOf n ∧ q'.op = op ∧ q'.flits = flitsOf (sendBytes q g l) ∧
        s.tick ≤ q'.arrives ∧ (∀ e ∈ (s.chan i).reqs, e.core = s.refOf n → e.arrives ≤ q'.arrives) ∧
        (q'.arrives < s.tick + (if s.ownChan i then 71 else 281) ∨ ∃ e ∈ (s.chan i).reqs, e.core = s.refOf n ∧ e.arrives = q'.arrives)) ∧
      (2 ≤ o.aux → s.grantOf i (s.refOf n) op ≠ none → 8 ≤ rho → c.sendBehind op i 3 = false → s.sourceWaits n op l = false →
        ∃ t ticks, exec (.sendAccept n op) s = .next t ∧ OpAccepted n op ticks s t ∧ 770 ≤ ticks ∧
        (s.ownChan i = true → l.space = 1 → (q = true → l.count % 32 = 0) → (g = true → q = false ∧ l.ty = .bf16) →
          ∃ w ∈ (t.chan i).wire, w.core = s.refOf n ∧ w.op = op ∧ w.msg.count = l.count ∧ w.msg.gen = routeGen x ∧
            w.msg.sender = s.regs.domain ∧ w.msg.kind = (if g then .gated else if q then .quantised else .data) ∧
            w.msg.ty = (if g then .bf16 else if q then .db8 else l.ty) ∧
            (l.Run → w.msg.payload.length = sendBytes q g l ∧ (q = false →
              w.msg.payload.take l.elemBytes = c.spad.bytes l.base l.elemBytes))))) ∧
    (∀ d x, o.kind = .sendr d x → o.accepted = false → s.engGo n op = true → kinDone →
      (kinBad → Refused (.sendAccept n op) 1) ∧
      (¬ kinBad → s.sendrReason n (s.last n d) x ≠ 0 → Refused (.sendAccept n op) (s.sendrReason n (s.last n d) x)) ∧
      (¬ kinBad → s.sendrReason n (s.last n d) x = 0 → s.sourceWaits n op (s.last n d) = false → ∃ t o', exec (.sendAccept n op) s = .next t ∧
        t.eng? n op = some o' ∧ o'.accepted = true ∧ o'.acceptTick = s.tick ∧ (s.opHole n o = none → ∃ cb till,
          t.fabric.switch = s.fabric.switch ++ [.contribution (s.refOf n) op (x.toNat / 16 % 1024) cb till] ∧ s.tick ≤ till ∧
          cb.pkg = s.regs.domain ∧ cb.mask = x.extractLsb' 24 16 ∧ cb.gen = x.extractLsb' 16 8 ∧ cb.op = x.extractLsb' 14 2 ∧
          cb.chan = x.extractLsb' 0 4 ∧ cb.ty = (s.last n d).ty ∧ cb.timeout = x.toNat / 2 ^ 40 ∧
          cb.elems.length = (s.last n d).count ∧ ((s.last n d).space = 1 → (s.last n d).Run → (s.last n d).width = 32 →
            ∀ k < (s.last n d).count, (cb.elems.getD k 0).toNat = leNat (c.spad.bytes ((s.last n d).base + 4 * k) 4))))) ∧
    (∀ i, o.sendChan = some i → o.accepted = true → o.aux + o.late ≤ s.tick → s.opHole n o = none →
      (∀ w ∈ (s.chan i).wire, ¬ (w.core = s.refOf n ∧ w.op = op)) → ∃ t, exec (.sendComplete n op) s = .next t ∧
        OnlyCore n s t ∧ OpCompleted n op (o.flags.zeroExtend 16 <<< 5) s t) ∧
    (∀ d x, o.kind = .recv d x → o.accepted = false → o.aux = 0 → s.engGo n op = true → kinDone →
      c.eng.eng.any (fun e => decide (e.id < op) && e.recvChan == some (routeChan x) && e.aux == 0) = false →
      let l := s.last n d
      let i := routeChan x
      (kinBad → Refused (.recvPosted n op) 1) ∧
      (¬ kinBad → s.badFabric n l = true → Refused (.recvPosted n op) 2) ∧
      (¬ kinBad → s.badFabric n l = false → l.ro = true → Refused (.recvPosted n op) 4) ∧
      let lost := l.space = 2 ∧ (s.rod l.slice).slice.disabledIn l.base l.footprint = true
      (¬ kinBad → s.badFabric n l = false → l.ro = false → lost → Refused (.recvPosted n op) 5) ∧
      (¬ kinBad → s.badFabric n l = false → l.ro = false → ¬ lost → s.bound n i = false → Refused (.recvPosted n op) 15) ∧
      (¬ kinBad → s.badFabric n l = false → l.ro = false → ¬ lost → s.bound n i = true → ∃ t, exec (.recvPosted n op) s = .next t ∧
        t.eng? n op = some { o with aux := 1, acceptTick := s.tick } ∧ (s.refOf n, op) ∈ (t.chan i).posted ∧
        (t.core n).arch = c.arch ∧ ∀ j, j ≠ i → t.chan j = s.chan j)) ∧
    (∀ d x msg res rest more, o.kind = .recv d x → o.accepted = false → s.engGo n op = true →
      (s.chan (routeChan x)).queue = (msg, res) :: rest → (s.chan (routeChan x)).posted = (s.refOf n, op) :: more →
      let l := s.last n d
      let why := s.recvReason n l msg
      let taken := { s.chan (routeChan x) with queue := rest, posted := more }
      8 ≤ s.rate n (s.recvUse n (routeChan x) l) l.elemBytes →
      (why ≠ 0 → ∃ t, exec (.recvAccept n op) s = .next t ∧ t.chan (routeChan x) = taken ∧ t.core n = c.refuse op why) ∧
      (why = 0 → ∃ t ticks, exec (.recvAccept n op) s = .next t ∧
        t.chan (routeChan x) = taken ∧ OpAccepted n op ticks s t ∧ 700 ≤ ticks)) ∧
    (∀ d x msg, o.kind = .recv d x → o.msg = some msg → o.accepted = true → o.aux + o.late ≤ s.tick → s.opHole n o = none →
      s.opWaits n o = false →
      let l := (s.sidesOf n o).dstLast
      let Done := fun t : State => OpCompleted n op ((recvVals l msg).2.2.zeroExtend 16 <<< 5) s t
      let at' := fun (t : State) (k m : Nat) => (t.core n).spad.bytes (l.base + k) m
      let plain := l.space = 1 ∧ l.Run ∧ c.spad.wf = true ∧ o.landed = 0
      ∃ t, exec (.recvComplete n op) s = .next t ∧
        (Done t → plain → (msg.kind ≠ .quantised → msg.payload.length = l.elemBytes → at' t 0 l.elemBytes = msg.payload) ∧
          (msg.kind = .quantised → msg.count = l.count → l.count ≤ msg.payload.length →
            (l.ty = .db8 → at' t 0 l.count = msg.payload.take l.count) ∧
            ∀ f, fmtOf l.ty = some f → ∀ k < l.count, leNat (at' t (k * (l.width / 8)) (l.width / 8)) =
              (f.encode .rne (dbDecode .db8 (msg.payload.getD k 0).toNat (msg.payload.getD (l.count + 2 * (k / 32)) 0).toNat
                (msg.payload.getD (l.count + 2 * (k / 32) + 1) 0).toNat)).1) ∧
          ∀ b, (b < l.base ∨ l.base + l.elemBytes ≤ b) → (t.core n).spad.read b = c.spad.read b) ∧
        (Done t ∨ ∃ k, 0 < k ∧ k < l.count ∧ t.eng? n op = some { o with landed := k, aux := s.tick + 1, late := 0 }) ∧
        ((x.getLsbD 16 = false ∨ l.space = 0 ∨ o.landed ≠ 0 ∨ o.promise ≤ s.tick) → Done t))

/-- R329 to R332, R334: in-switch reduction. The contributions that have reached a slot are served by their ticks, those of one
tick by domain number: one that its mask, generation or shape does not admit changes no slot and is answered by a refused
result; an admitted one joins, and the last of the mask releases the instance, which then takes no more of its generation;
so does the end of its timeout, and a fabric reset forgets every slot. A release sends each contributor of this package the
merged elements and the trailer. The answer completes the SENDR, or refuses it LINK. That a tick's contributions are served
once the tick has passed is log 24; what another package contributes comes from outside (log 1). -/
def Obligations.InSwitchReduction : Prop :=
  ∀ (s : State) (slot n op : Nat) (c : Contribution), slot < 1024 →
    let sl := s.redSlot slot
    let own := s.regs.domain
    let there := s.fabric.switch.filter fun e => match e with
      | .contribution _ _ k _ u => k == slot && decide (u < s.tick)
      | _ => false
    let steps := fun i : Instr => i = .reductionTimeout slot ∨ ∃ d : Contribution, d.pkg = own ∧ i = .contributionArrival slot d
    let Slots := fun (ev : Instr) (w : RedSlot) (P : State → Prop) => ∃ t, exec ev s = .next t ∧ t.redSlot slot = w ∧
      (∀ j, j ≠ slot → t.redSlot j = s.redSlot j) ∧ t.cores = s.cores ∧ P t
    let Sends := fun (t : State) (d : Contribution) (gen : BitVec 8) (p : List Byte) => d.pkg = own → ∃ u, s.tick ≤ u ∧
      .result (16 * own.toNat + d.chan.toNat) ⟨.result, d.ty, d.elems.length, gen, own, p⟩ u ∈ t.fabric.switch
    (c.pkg ≠ own → exec (.contributionArrival slot c) s = .next
      { s with fabric := { s.fabric with switch := s.fabric.switch ++ [.contribution 0 0 slot c s.tick] } }) ∧
    (∀ ev k o till, steps ev → there = [.contribution k o slot c till] →
      (∀ i d, sl.inst = some i → i.deadline = some d → s.tick ≤ d) →
      (sl.inst = none → c.timeout = 0 ∨ s.tick ≤ till + c.timeout) →
      let inst := sl.inst.getD
        { gen := c.gen, op := c.op, ty := c.ty, n := c.elems.length, mask := c.mask, arrived := 0, contribs := [],
          deadline := if c.timeout = 0 then none else some (till + c.timeout) }
      let more := { inst with arrived := inst.arrived ||| (1#16 <<< c.pkg.toNat), contribs := inst.contribs ++ [c] }
      let Answers := fun t : State => c.pkg = own → ∃ u, s.tick ≤ u ∧ .answer k o (sl.cause c == 0) u ∈ t.fabric.switch
      (sl.cause c ≠ 0 → Slots ev sl fun t => Answers t ∧ Sends t c c.gen
        (List.replicate (4 * c.elems.length) 0 ++ trailerBytes slot c.gen (4 + 16 * sl.cause c) 0 0 0 c.mask 0)) ∧
      (sl.cause c = 0 → more.arrived ≠ more.mask → Slots ev { sl with inst := some more } Answers) ∧
      (sl.cause c = 0 → more.arrived = more.mask → Slots ev { lastGen := some inst.gen, inst := none } fun t => Answers t ∧
        ∀ d ∈ more.contribs, ∃ p, ResultBytes slot more false p ∧ Sends t d inst.gen p)) ∧
    (∀ ev a b i j p q ta tb, steps ev → (there = [.contribution i j slot a ta, .contribution p q slot b tb] ∨
        there = [.contribution p q slot b tb, .contribution i j slot a ta]) → (ta < tb ∨ ta = tb ∧ a.pkg < b.pkg) →
      sl.inst = none → sl.cause a = 0 → a.mask ≠ 1#16 <<< a.pkg.toNat → a.timeout = 0 → b.gen ≠ a.gen →
      ∃ t, exec ev s = .next t ∧ (t.redSlot slot).inst.map (·.gen) = some a.gen) ∧
    (c.mask.getLsbD c.pkg.toNat = false → sl.cause c = 4) ∧
    (c.mask.getLsbD c.pkg.toNat = true → sl.inst = none → (sl.cause c = 0 ↔ sl.lastGen ≠ some c.gen)) ∧
    (∀ ev i till, steps ev → there = [] → sl.inst = some i → i.deadline = some till → till < s.tick →
      Slots ev { lastGen := some i.gen, inst := none } fun t => ∀ d ∈ i.contribs, ∃ p, ResultBytes slot i true p ∧ Sends t d i.gen p) ∧
    exec .fabricReset s = .next { s with fabric := { s.fabric with slots := Vector.replicate 1024 {} } } ∧
    (∀ ok till, till ≤ s.tick → .answer n op ok till ∈ s.fabric.switch →
      (∀ b u, .answer n op b u ∈ s.fabric.switch → b = ok ∧ u = till) → s.phys n < 256 →
      (n < 256 ∨ ∃ k, s.kernel? ((n - 256) / 256) = some k ∧ k.st = .placed) →
      ∃ t, exec (.sendrAnswer n op) s = .next t ∧ t.fabric = { s.fabric with switch := s.fabric.switch.erase (.answer n op ok till) } ∧
        (ok = true → OpCompleted (s.phys n) op 0 s t) ∧ (ok = false → t.core (s.phys n) = (s.core (s.phys n)).refuse op 15))

/-- R251 to R259, R389: copies. One whose kin is complete is refused at its first failing check, or is accepted with a promise;
it then moves its elements, through the lasts that were its kernel's as it was accepted (log 25), and completes, MISSED
where it is late. A promise that passes raises PROMISE_MISSED, an unmapped page ends the context, and an error that a read
of DRAM corrects delays the operation by 112 ticks. That all the bytes of a copy are read and written in the one step of its
completion is log 23. -/
def Obligations.Copies : Prop :=
  ∀ (s : State) (n op : Nat) (o : EngOp), n < 256 → s.eng? n op = some o →
    let c := s.core n
    let kinDone := c.arch.tokEnded o.kin = true
    let kinBad := c.arch.tokState o.kin = .refused
    let Refused := fun (why : Nat) => ∃ t, exec (.copyAccept n op) s = .next t ∧ OpRefused n op why s t
    (∀ f src dst, o.kind = .copy f src dst →
      let a := s.last n src
      let b := s.last n dst
      let why := s.copyReason n f a b
      let u := s.copyUse n f a b
      let rho := s.rate n u.1 u.2
      let ticks := copyTicks u.1 u.2 rho
      (o.accepted = false → s.engGo n op = true → kinDone →
        (kinBad → Refused 1) ∧
        (¬ kinBad → s.storesPending n op f a = false → s.readsWait n op ((s.sidesOf n o).copySpans f) = false →
          (why ≠ 0 → Refused why) ∧
          (why = 0 → (rho < 8 ∨ 2 ^ 32 ≤ ticks) → Refused 8) ∧
          (why = 0 → 8 ≤ rho → ticks < 2 ^ 32 → ∃ t, exec (.copyAccept n op) s = .next t ∧ OpAccepted n op ticks s t))) ∧
      (o.accepted = true → o.aux + o.late ≤ s.tick → s.opHole n o = none → s.opWaits n o = false →
        let a := (s.sidesOf n o).srcLast
        let b := (s.sidesOf n o).dstLast
        ∃ (t : State) (fl : Flags), exec (.copyComplete n op) s = .next t ∧ OpCompleted n op (fl.zeroExtend 16 <<< 5) s t ∧
          (f = 0 → a.ty = .int8 → b.ty = .int8 → a.space = 1 → b.space = 1 → a.ext 0 = b.ext 0 →
            (∀ k, 1 ≤ k → k < 4 → a.ext k = 1 ∧ b.ext k = 1) → c.spad.wf = true → ∀ x,
              (t.core n).spad.read x = if b.base ≤ x ∧ x < b.base + b.ext 0 then c.spad.read (a.base + (x - b.base))
                else c.spad.read x))) ∧
    (∀ p q, (c.arch.ops.find? fun r => r.id == op) = some q → q.promise = some p → p < s.tick → q.missRaised = false →
      q.st ≠ .refused → (q.st = .complete → p < q.doneTick) → c.unit.kernel.isSome = true →
      ∃ t, exec (.promiseMissed n op) s = .next t ∧ OnlyCore n s t ∧ (t.core n).seq.pendTraps = c.seq.pendTraps ++
        [(8, BitVec.ofNat 64 (c.arch.tokenOf op + q.status.toNat * 2 ^ 4))]) ∧
    (∀ asid va, s.asidAt n = some asid → asid < 512 → s.opHole n o = some va → o.accepted = true → o.aux + o.late ≤ s.tick →
      (s.ctx asid).live = true → (s.ctx asid).ending = false → ∃ t, exec (.engineUnmappedPage n op) s = .next t ∧
        (t.ctx asid).ending = true ∧ (t.status asid).ctxdet = BitVec.ofNat 64 va ∧ t.eng? n op = some o) ∧
    (∀ line ln, o.accepted = true →
      (((s.opSpans n o).filter fun e => !e.2.1).flatMap spanLines).find? (fun k => s.dramLine k false == some line) = some ln →
      (s.errors.planted.find? fun e => e.1 == line && e.2.1 == !s.l2Holds line) = some (line, !s.l2Holds line, false) →
      ∃ t, exec (.engineErrorDetection n op line) s = .next t ∧
        t.eng? n op = some { o with late := o.late + (if s.l2Holds line then 0 else 112) } ∧
        t.errors.planted = s.errors.planted.filter (· != (line, !s.l2Holds line, false)))

/-- R269 to R272, R374, R379: probes. The first of a core whose kin is complete is refused at its first failing check; one
outside memory completes at once; another is promised and walks its pages, and reaches each at a tick no later than 140
ticks and the costs of the pages before it from its acceptance on. A walk that meets a missing page stops there, and
PAGE_MISSING is pending with the page in PFIA; after the handler it walks on from there. A page that it reaches is pinned,
and after the last the probe completes. A pre-emption that is taken stops the walk. That the fault of a probe that was not
issued in privileged mode waits aside during a handler, and that one that was ends the context whatever the mode is now, are
log 29. -/
def Obligations.Probes : Prop :=
  ∀ (s : State) (n : Nat) (p : Probe) (rest : List Probe), n < 256 → (s.core n).eng.probes = p :: rest →
    let c := s.core n
    let l := s.last n p.d
    let ps := s.probePages n p
    let ready := p.accepted = false ∧ s.engGo n p.id = true ∧ c.arch.tokEnded p.kin = true ∧
      (p.faulted = true → c.arch.priv = false ∧ c.seq.trapSeq = none ∧ ∀ e ∈ c.seq.pendTraps, e.1 ≠ 4)
    let kinBad := c.arch.tokState p.kin = .refused
    let u := { s with fresh := s.fresh + 1 }
    let Refused := fun (why : Nat) => ∃ t, exec (.probeAccept n) s = .next t ∧ OnlyCore n s t ∧
      t.core n = { c.refuse p.id why with eng := { (c.refuse p.id why).eng with probes := rest } }
    let cost := fun qs : List (Nat × Bool × Nat) => (qs.map fun e => if s.iaLocal (e.1 * 65536) = true then 28 else 420).sum
    let Walks := ∃ t next, exec (.probeAccept n) s = .next t ∧ OnlyCore n u t ∧ s.tick ≤ next ∧ next ≤ s.tick + 140 ∧
      (t.core n).eng = { c.eng with probes := { p with
        accepted := true, begun := true, faulted := false, since := s.tick, first := p.pos, nextTick := next } :: rest } ∧
      ∀ r ∈ (t.core n).arch.ops, r.id = p.id → r.st = .promised ∧ r.promise = some (s.tick + 140 + cost (ps.drop p.pos))
    (p.faulted = true → c.arch.priv = true → exec (.probeAccept n) s = .next s) ∧
    (ready → p.begun = true → Walks) ∧
    (ready → p.begun = false → kinBad → Refused 1) ∧
    (ready → p.begun = false → ¬ kinBad →
      ((l.rank = 0 ∨ l.space = 3) → Refused 2) ∧
      (l.rank ≠ 0 → l.space ≠ 3 → p.write = true → l.ro = true → Refused 4) ∧
      (l.rank ≠ 0 → (p.write = false ∨ l.ro = false) → (l.space = 1 ∨ l.space = 2) → ∃ t, exec (.probeAccept n) s = .next t ∧
        OnlyCore n s t ∧ OpCompleted n p.id 0 s t ∧ (t.core n).eng.probes = rest) ∧
      (l.rank ≠ 0 → l.space = 0 → (p.write = false ∨ l.ro = false) → ps.any (fun e => s.pinFull n e.1) = true → Refused 9) ∧
      (l.rank ≠ 0 → l.space = 0 → (p.write = false ∨ l.ro = false) → ps.any (fun e => s.pinFull n e.1) = false → Walks)) ∧
    ((p.accepted = false ∨ s.tick < p.nextTick ∨ ∃ k till, c.seq.pre = .landing k till) →
      exec (.probeFault n) s = .next s ∧ exec (.probeComplete n) s = .next s) ∧
    (∀ e, p.accepted = true → p.nextTick ≤ s.tick → (c.seq.pre = .running ∨ ∃ k, c.seq.pre = .requested k) → ps[p.pos]? = some e →
      (s.probeCause e.1 p.write ≠ 0 →
        let stopped := { p with accepted := false, faulted := true } :: rest
        (p.priv = false → ∃ t, exec (.probeFault n) s = .next t ∧
          (c.arch.priv = false → (t.core n).eng = { c.eng with probes := stopped }) ∧
          (c.arch.priv = true → (t.core n).eng = { c.eng with
            aside := c.eng.aside ++ stopped.filter (fun q => !q.priv), probes := stopped.filter (·.priv) }) ∧
          (t.core n).seq = { c.seq with pendTraps := c.seq.pendTraps ++ [(4, 0)] } ∧
          (t.core n).arch.ctl.pfia = BitVec.ofNat 64 (e.1 % 2 ^ 36 * 2 ^ 16) ∧
          (t.core n).arch.pc = c.arch.pc ∧ ∀ r ∈ (t.core n).arch.ops, r.id = p.id → r.st = .unpromised ∧ r.promise = none) ∧
        (∀ asid, p.priv = true → s.asidOf n = some asid → asid < 512 → (s.ctx asid).live = true → (s.ctx asid).ending = false →
          ∃ t, exec (.probeFault n) s = .next t ∧ (t.ctx asid).ending = true ∧ (t.status asid).ctxdet = 0x8000000000000000#64)) ∧
      (s.probeCause e.1 p.write = 0 →
        let Pins := fun t : State => ∀ k, s.kernelOf n = some k → ∃ k', t.kernel? k.num = some k' ∧ e.1 ∈ k'.pins
        (p.pos + 1 < ps.length → ∃ t next, exec (.probeComplete n) s = .next t ∧ Pins t ∧ s.tick ≤ next ∧
          next ≤ max s.tick (p.since + 140 + cost ((ps.take (p.pos + 1)).drop p.first)) ∧
          (t.core n).eng = { c.eng with probes := { p with pos := p.pos + 1, nextTick := next } :: rest } ∧
          (t.core n).arch = c.arch) ∧
        (ps.length ≤ p.pos + 1 → ∃ t, exec (.probeComplete n) s = .next t ∧ Pins t ∧
          OpCompleted n p.id 0 s t ∧ (t.core n).eng.probes = rest)))

/-- R245, R267, R272, R273, R207, R386, R389, R390, R394, R395, R399: the page map, staging and errors. SYNC is refused while
its page is pinned, and waits for the dirty lines of the L1s; at its end word 0 of the page is in force, unless the page has
been pinned meanwhile; CLEAR zeroes the upper half of word 1; a probe of another package pins a page here (log 1 says how a
step names it); a change of staging ways begins at the edge after it is written and ends with the lines of the new ways
gone; a line of code arrives; a scrub reads the line that it visits, in an order that is the model's choice (log 31); a
frame moves to its spare; and a way is emptied. -/
def Obligations.MemorySide : Prop :=
  ∀ (s : State) (page r ways n line frame way asid : Nat) (v : BitVec 64), r < 64 → n < 256 → asid < 512 →
    let m := s.pm
    let sl := (s.rod r).slice
    (m.busy = false → s.mapWord1 page % 2 ^ 16 ≠ 0 → exec (.sync page) s =
      .next { s with pm := { m with refused := true, op := 1, page := page,
                                    kept := (page, s.mapWord0 page) :: m.kept.filter fun e => e.1 != page } }) ∧
    (m.busy = false → s.mapWord1 page % 2 ^ 16 = 0 → ∃ till, s.tick < till ∧ exec (.sync page) s =
      .next { s with fresh := s.fresh + 1, pm := { m with busy := true, refused := false, op := 1, page := page, till := till,
                                                          kept := m.kept.filter fun e => e.1 != page } }) ∧
    (m.busy = false → s.dram.wf = true → ∃ t, exec (.clear page) s = .next t ∧
      t = { s with dram := t.dram, pm := { m with refused := false, op := 2, page := page } } ∧
      t.mapWord1 page = s.mapWord1 page % 2 ^ 16 ∧
      ∀ a, (a < s.mapEntry page + 4 ∨ s.mapEntry page + 8 ≤ a) → t.dram.read a = s.dram.read a) ∧
    (∀ dom < 16, dom ≠ s.regs.domain.toNat → page < 2 ^ 23 → wordV (s.wordInForce page) = true → s.mapWord1 page % 2 ^ 16 < 65535 →
      s.dram.wf = true → ∃ t, exec (.probeComplete (256 + (32 * page + dom))) s = .next t ∧
        t = { s with dram := t.dram, pm := { m with peerPins := page :: m.peerPins } } ∧ t.mapWord1 page = s.mapWord1 page + 1 ∧
        ∀ a, (a < s.mapEntry page + 4 ∨ s.mapEntry page + 8 ≤ a) → t.dram.read a = s.dram.read a) ∧
    (let dirty := ∃ c < 256, ∃ g ∈ (s.core c).l1, g.blk / 128 = s.syncPage ∧ g.dirty ≠ 0
     m.busy = true → (dirty → exec .syncComplete s = .next s) ∧
      (¬ dirty → m.till ≤ s.tick → m.queue = [] → s.mapPage m.page = false → s.dram.wf = true → s.errors.planted = [] → ∃ t, exec .syncComplete s = .next t ∧ t.pm.busy = false ∧
        (s.mapWord1 m.page % 2 ^ 16 = 0 → t.wordInForce m.page = t.mapWord0 m.page) ∧
        (s.mapWord1 m.page % 2 ^ 16 ≠ 0 → t.pm.refused = true ∧ t.wordInForce m.page = s.wordInForce m.page) ∧
        (∀ q, q ≠ m.page → t.wordInForce q = s.wordInForce q) ∧ ∀ c < 256, (t.core c).arch = (s.core c).arch)) ∧
    (∃ t, exec (.stagingResize r ways) s = .next t ∧ OnlyRod r s t ∧
      t.rod r = { s.rod r with slice := { sl with waysNext := some (ways % 32) } }) ∧
    (∀ w, sl.waysNext = some w → let t := s.beginResize r
      ∃ till, s.tick < till ∧ OnlyRod r { s with fresh := s.fresh + 1 } t ∧
        t.rod r = { s.rod r with
          slice := { sl with waysCfg := w, waysNext := none, waysNew := min w 16, busy := true, till := till } }) ∧
    (sl.busy = true → sl.till ≤ s.tick → (sl.ways ≤ sl.waysNew ∨ s.stagingInUse r sl.waysNew = false) → sl.staging.wf = true →
      ∃ t, exec (.stagingResizeComplete r) s = .next t ∧ (t.rod r).slice.ways = sl.waysNew ∧ (t.rod r).slice.busy = false ∧
        (∀ l ∈ (t.rod r).slice.lines, sl.waysNew ≤ l.way) ∧
        ∀ a, (t.rod r).slice.staging.read a = if a < min sl.ways sl.waysNew * 2 ^ 19 then sl.staging.read a else 0) ∧
    (∀ addr till, (s.core n).seq.fill = some (addr, till) → till ≤ s.tick → ∃ t, exec (.fetchFill n) s = .next t ∧ OnlyCore n s t ∧
      t.core n = { s.core n with l1 := (t.core n).l1, l1Wait := (t.core n).l1Wait, seq := { (s.core n).seq with fill := none } }) ∧
    (line < 2 ^ 32 → s.regs.elcfg.getLsbD 12 = true → s.errors.planted = [(line, true, false)] →
      s.tick % 8192 = 0 → s.tick / 16384 % 2 ^ 32 = line → s.scrubDue = some line ∧ ∃ t, exec (.patrolScrub line) s = .next t ∧
      t.errors.planted = [] ∧ t.cores = s.cores ∧ t.regs.eccnt = BitVec.ofNat 64 (s.regs.eccnt.toNat % 2 ^ 32 +
        min (s.regs.eccnt.toNat / 2 ^ 32 + 1) (2 ^ 32 - 1) * 2 ^ 32)) ∧
    (line < 2 ^ 32 → (s.regs.elcfg.getLsbD 12 = false ∨ s.errors.planted = [] ∨ s.tick % 2048 ≠ 0) →
      exec (.patrolScrub line) s = .next s) ∧
    (∀ till spare, s.errors.retiring.find? (fun e => e.1 == frame) = some (frame, till, spare) → till ≤ s.tick → s.errors.planted = [] →
      s.errors.held = [] →
      ∃ t, exec (.pageRetirement frame) s = .next t ∧ t = { s with errors := { s.errors with
        retiring := s.errors.retiring.filter (fun e => e.1 != frame),
        redirect := s.errors.redirect.filter (fun e => e.1 != frame) ++ [(frame, spare)],
        contained := t.errors.contained } }) ∧
    (∀ till spare, s.errors.quarantine.find? (fun e => e.1 == r && e.2.1 == way) = some (r, way, till, spare) → till ≤ s.tick →
      sl.staging.wf = true → s.errors.planted = [] → s.errors.errinj.getLsbD 63 = false → ∃ t, exec (.wayQuarantine r way) s = .next t ∧
        t.errors = { s.errors with
          quarantine := s.errors.quarantine.filter (· != (r, way, till, spare)), contained := t.errors.contained,
          poison := t.errors.poison } ∧
        (∀ ln ∈ t.errors.poison, ln ∈ s.errors.poison ∨ ∃ l ∈ sl.lines, l.line = ln ∧ l.poison = true) ∧
        (∀ c < 256, (t.core c).arch = (s.core c).arch ∧ (t.core c).spad = (s.core c).spad) ∧ (∀ q, q ≠ r → t.rod q = s.rod q) ∧
        (∀ l ∈ (t.rod r).slice.lines, l.way ≠ way) ∧
        (∀ l ∈ sl.lines, l.way ≠ way → (∀ k ∈ sl.lines, k.line = l.line → k = l) → l ∈ (t.rod r).slice.lines) ∧
        (t.rod r).slice.spareUsed = sl.spareUsed ∧
        (t.rod r).slice.disabled = (if spare then sl.disabled else way :: sl.disabled) ∧
        ∀ a, (t.rod r).slice.staging.read a = if way < sl.ways ∧ a / 2 ^ 19 = way then 0 else sl.staging.read a) ∧
    exec (.errinjWrite v) s = .next { s with errors := { s.errors with errinj := v &&& 0xE00FFFFFFFFFFF80#64 } } ∧
    (s.errors.frozen = true → exec (.remoteErrorReport asid line) s = .next s) ∧
    ((s.ctx asid).live = true → (s.ctx asid).ending = false → s.errors.frozen = false →
      (s.runningCores asid = [] ∨ ∃ c ∈ s.runningCores asid, (s.core c).arch.priv = true) → ∃ t,
      exec (.remoteErrorReport asid line) s = .next t ∧ (t.ctx asid).ending = true) ∧
    ((s.ctx asid).live = true → (s.ctx asid).ending = false → s.errors.frozen = false → s.runningCores asid ≠ [] →
      (∀ c ∈ s.runningCores asid, c < 256 ∧ (s.core c).arch.priv = false) → ∃ t, exec (.remoteErrorReport asid line) s = .next t ∧
        ∀ c ∈ s.runningCores asid, ∃ d, (1, d) ∈ (t.core c).seq.pendTraps)

/-- R37 to R39, R41, R191, R195 to R202, R359: an array operation at the head of the matrix queue starts once the array is free,
after the accesses before it that are on their way where its core moves bytes (log 34: `u`); a plain one holds it for 32
cycles and completes 6 later, and one that completes leaves its rows, tags, flags and token at once: each element the exact
sum of the old value and the products, rounded or saturated once, old values 0 for MMAZ and for a row of MMAG that takes a
new tag; types that do not combine give zeros and NV. MGSET writes the configuration, MDRAIN completes when the operations
before it have, and a refused kin refuses. The resolve unit leaves its rows, register and flags at its end. That a refused
one does not wait for the array is log 23, and that rows beyond the tile's row count raise the flags of their sums too is
log 22. -/
def Obligations.MatrixAndResolveSteps : Prop :=
  ∀ (s : State) (n : Nat), n < 256 →
    let c := s.core n
    (∀ o rest, s.matrixGo n = true → c.eng.mq = o :: rest →
      let u := s.forceMoving n o.id
      let c := u.core n
      ((s.core n).eng.moving = false → u = s) ∧
      (c.arch.tokState o.kin = .refused → ∃ t, exec (.matrixOpStart n) s = .next t ∧ OnlyCore n u t ∧ (t.core n).eng.mq = rest ∧
        ∀ p ∈ (t.core n).arch.ops, p.id = o.id → p.st = .refused ∧ p.status = 1) ∧
      (c.arch.tokState o.kin ≠ .refused → ∀ d x, o.kind = .mgset d x → ∃ t, exec (.matrixOpStart n) s = .next t ∧ OnlyCore n u t ∧
        (t.core n).arch.ctl.mcfg = (d ++ x.extractLsb' 0 58 : BitVec 64) ∧ OpCompleted n o.id 0 u t ∧
        (t.core n).eng.mq.map (·.id) = rest.map (·.id)) ∧
      (c.arch.tokState o.kin ≠ .refused → o.kind = .mdrain →
        let before := c.eng.mrun.filter fun r => decide (r.id < o.id)
        (before = [] → ∃ t, exec (.matrixOpStart n) s = .next t ∧ OnlyCore n u t ∧ OpCompleted n o.id 0 u t ∧ (t.core n).eng.mq = rest) ∧
        (before ≠ [] → ∃ t run, exec (.matrixOpStart n) s = .next t ∧ OnlyCore n u t ∧ (t.core n).eng.mq = rest ∧
          (t.core n).eng.mrun = c.eng.mrun ++ [run] ∧ run.id = o.id ∧ run.kind = .mdrain ∧ run.after = before.map (·.id))) ∧
      (c.arch.tokState o.kin ≠ .refused → ∀ tacc vrow vt db, o.kind = .mmag tacc vrow vt db →
        let g := u.last n (mGlast c.arch.ctl.mcfg)
        (((u.last n db).matrixOk false = false ∨ g.matrixOk true = false) → ∃ t, exec (.matrixOpStart n) s = .next t ∧ OnlyCore n u t ∧
          (t.core n).eng.mq = rest ∧ ∀ p ∈ (t.core n).arch.ops, p.id = o.id → p.st = .refused ∧ p.status = 2) ∧
        ((u.last n db).matrixOk false = true → g.matrixOk true = true → ∃ t run, exec (.matrixOpStart n) s = .next t ∧ OnlyCore n u t ∧
          (t.core n).eng.mq = rest ∧ (t.core n).eng.mrun = c.eng.mrun ++ [run] ∧ run.id = o.id ∧ run.cfg = c.arch.ctl.mcfg ∧
          (run.mismatch = false ↔ o.left.conf = true ∧ o.left.ty = .int32 ∧ run.acc.conf = true ∧
            ∃ K, MTypes g.ty (u.last n db).ty K run.acc.ty) ∧
          run.acc = c.arch.tiles.getD tacc.toNat {} ∧ run.idx = (if vrow < o.left.rowCount then o.left.rows.getD vrow 0 else 0) ∧
          c.cyc + 38 ≤ run.doneCyc ∧ (t.core n).eng.arrayFree + 6 = run.doneCyc ∧ (t.core n).arch.tiles = c.arch.tiles ∧
          (t.core n).arch.x = c.arch.x)) ∧
      (c.arch.tokState o.kin ≠ .refused → ∀ f tacc ta db, o.kind = .mma f tacc ta db →
        ((u.last n db).matrixOk false = false → ∃ t, exec (.matrixOpStart n) s = .next t ∧ OnlyCore n u t ∧ (t.core n).eng.mq = rest ∧
          ∀ p ∈ (t.core n).arch.ops, p.id = o.id → p.st = .refused ∧ p.status = 2) ∧
        ((u.last n db).matrixOk false = true → ∃ t run, exec (.matrixOpStart n) s = .next t ∧ OnlyCore n u t ∧
          (t.core n).eng.mq = rest ∧ (t.core n).eng.mrun = c.eng.mrun ++ [run] ∧ run.id = o.id ∧ run.doneCyc = c.cyc + 38 ∧
          run.cfg = c.arch.ctl.mcfg ∧ run.acc = c.arch.tiles.getD tacc.toNat {} ∧ run.left = o.left ∧
          (run.mismatch = false ↔ o.left.conf = true ∧ run.acc.conf = true ∧
            (∃ K, MTypes o.left.ty (u.last n db).ty K run.acc.ty) ∧ ¬ (f = 2 ∧ isDbTy o.left.ty = true)) ∧
          (t.core n).eng.arrayFree = c.cyc + 32 ∧ (t.core n).arch.tiles = c.arch.tiles ∧ (t.core n).arch.x = c.arch.x))) ∧
    (∀ r, c.matrixDone = some r → r.kind.isArray = true → ∃ t, exec (.matrixOpComplete n) s = .next t ∧ OnlyCore n s t ∧
      let u := (t.core n).arch.tiles.getD r.kind.acc.toNat {}
      let fl := (t.core n).arch.ctl.fpflags
      (t.core n).arch.tiles = c.arch.tiles.setIfInBounds r.kind.acc.toNat u ∧
      (t.core n).arch.x = c.arch.x ∧ (∀ q ∈ (t.core n).eng.mrun, q.id ≠ r.id) ∧ OpCompleted n r.id 0 s t ∧
      (r.mismatch = true → u = (if r.acc.conf then { r.acc with rows := zeroRows } else r.acc) ∧ fl = c.arch.ctl.fpflags ||| flagNV) ∧
      (∀ f tacc ta db K, r.kind = .mma f tacc ta db → r.mismatch = false → MTypes r.left.ty (s.last n db).ty K r.acc.ty →
        ∃ rd V, r.Reads c rd ∧
          ArraySums r c rd K (fun _ => True) (leftElem rd c.spadSize r.cfg f r.left K) (s.last n db)
            (fun m j => if f = 1 ∨ r.acc.nrows ≤ m then 0 else rowElem r.acc.ty (r.acc.rows.getD m 0) j) V ∧
          u = { r.acc with rows := u.rows } ∧ RowsAre r.acc u (fun _ => True) V ∧ fl = c.arch.ctl.fpflags ||| arrayFlags V) ∧
      (∀ tacc vrow vt db K, r.kind = .mmag tacc vrow vt db → r.mismatch = false →
        let g := s.last n (mGlast r.cfg)
        MTypes g.ty (s.last n db).ty K r.acc.ty →
        let e := fun m : Nat => (r.idx >>> (32 * m)).truncate 29
        let tag := fun m : Nat => r.acc.tags.getD m {}
        let asTag := fun b : BitVec 29 => ({ token := b.extractLsb' 0 12, expert := b.extractLsb' 12 8, gen := b.extractLsb' 20 8, valid := true } : Tag)
        let used := fun m => (e m).getLsbD 28 = true
        let fresh := fun m => r.acc.tent = true ∧ (tag m).valid = true ∧ tag m ≠ asTag (e m)
        ∃ rd V, r.Reads c rd ∧
          ArraySums r c rd K used (fun m k => scratchElem rd c.spadSize (128 * mAexp r.cfg) g (mKpos r.cfg * K + k) ((e m).extractLsb' 0 12).toNat)
            (s.last n db) (fun m j => if fresh m ∨ r.acc.nrows ≤ m then 0 else rowElem r.acc.ty (r.acc.rows.getD m 0) j) V ∧
          u = { r.acc with rows := u.rows, tags := u.tags } ∧ RowsAre r.acc u used V ∧ fl = c.arch.ctl.fpflags ||| arrayFlags V ∧
          ∀ m < 64, u.tags.getD m {} = if used m ∧ r.acc.tent = true ∧ m < r.acc.nrows then asTag (e m) else tag m)) ∧
    (∀ r, c.matrixDone = some r → r.kind.isArray = false → ∃ t, exec (.matrixOpComplete n) s = .next t ∧ OnlyCore n s t ∧
      (t.core n).arch.tiles = c.arch.tiles ∧ (t.core n).arch.x = c.arch.x ∧ OpCompleted n r.id 0 s t) ∧
    (∀ o, c.eng.spec = some o → o.doneCyc ≤ c.cyc → ∃ t, exec (.specComplete n) s = .next t ∧ OnlyCore n s t ∧
      (t.core n).eng.spec = none ∧ (∀ i ∈ (t.core n).eng.ilk, i.id ≠ o.id ∨ i.id = c.uid) ∧
      (t.core n).arch.ctl.fpflags = c.arch.ctl.fpflags ||| o.flags ∧
      (∀ q : BitVec 4, (∀ e, o.dst = some e → e.1 ≠ q) → (∀ e, o.tent = some e → e.1 ≠ q) →
        (t.core n).arch.tiles.getD q.toNat {} = c.arch.tiles.getD q.toNat {}) ∧
      (∀ xd v, o.out = some (xd, v) → (t.core n).settledX xd = (if xd = 0 then 0 else v) ∧ ∀ q, q ≠ xd →
        (t.core n).settledX q = c.settledX q) ∧
      (o.out = none → (t.core n).arch.x = c.arch.x) ∧
      (∀ u rows, o.dst = some (u, rows) → o.tent = none → ((t.core n).arch.tiles.getD u.toNat {}).rows = rows) ∧
      (∀ u m, o.dst = none → o.tent = some (u, m) →
        (t.core n).arch.tiles.getD u.toNat {} = (c.arch.tiles.getD u.toNat {}).clearRows m) ∧
      (∀ u rows w m, o.dst = some (u, rows) → o.tent = some (w, m) → u ≠ w → ((t.core n).arch.tiles.getD u.toNat {}).rows = rows ∧
        (t.core n).arch.tiles.getD w.toNat {} = (c.arch.tiles.getD w.toNat {}).clearRows m) ∧
      (o.dst = none → o.tent = none → (t.core n).arch.tiles = c.arch.tiles))

/-- R302, R158, R163, R306: a barrier of one core completes at once; an arrival that a rod's, a panel's or the domain's instance
does not yet have joins it, and the last one completes them all at one tick; a COUNT that differs is refused. A sleep and a
wait for a wake end; and the oldest RTICK that waits gets its ticket. -/
def Obligations.BarriersAndWaits : Prop :=
  ∀ (s : State) (n op : Nat) (o : EngOp) (peer tag count : Nat), n < 256 → s.eng? n op = some o →
    let c := s.core n
    let ready := o.accepted = false ∧ s.engGo n op = true ∧ c.arch.tokEnded o.kin = true
    let Refused := fun (why : Nat) => ∃ t, exec (.barrierArrival n op) s = .next t ∧ OpRefused n op why s t
    (∀ scope x, o.kind = .bar scope x → ready →
      (c.arch.tokState o.kin = .refused → Refused 1) ∧
      (c.arch.tokState o.kin ≠ .refused → s.fenceMet n scope op = true →
        (scope = .core → ∃ t, exec (.barrierArrival n op) s = .next t ∧ OnlyCore n s t ∧ OpCompleted n op 0 s t) ∧
        (∀ b, scope = .domain → (s.fabric.bars.find? fun b => b.scope == .domain && b.tag == x.truncate 16) = some b →
          b.count ≠ (x.extractLsb' 16 12).toNat + 1 → Refused 11) ∧
        (∀ k, (scope = .rod ∨ scope = .panel) → s.kernelOf n = some k → s.fabric.bars = [] → 2 ≤ (s.barParts n scope).length →
          ∃ t, exec (.barrierArrival n op) s = .next t ∧ t.eng? n op = some { o with accepted := true } ∧
            t.fabric.bars = [⟨scope, c.unit.kernel.getD 0, x.truncate 16, (s.barParts n scope).length, s.barParts n scope,
              [(c.unit.kernel.getD 0, s.idxOf n, op)]⟩] ∧ ∀ m, m ≠ n → t.core m = s.core m) ∧
        (∀ b, (scope = .rod ∨ scope = .panel) → s.fabric.bars = [b] → b.scope = scope → b.tag = x.truncate 16 →
          b.kernel = c.unit.kernel.getD 0 → s.idxOf n ∈ b.parts →
          let all := b.arrivals ++ [(c.unit.kernel.getD 0, s.idxOf n, op)]
          ({ b with arrivals := all } : BarInst).full = true → ∃ t, exec (.barrierArrival n op) s = .next t ∧ t.fabric.bars = [] ∧
            ∀ e ∈ all, ∀ k, s.kernel? e.1 = some k → k.st = .placed → k.cores.getD e.2.1 0 < 256 →
              OpCompleted (k.cores.getD e.2.1 0) e.2.2 0 s t))) ∧
    (tag < 2 ^ 16 → s.fabric.bars = [] → 2 ≤ count → 256 ≤ peer → ∃ t, exec (.barrierArrival peer (tag + 2 ^ 16 * count)) s = .next t ∧
      t.cores = s.cores ∧ ∃ b, t.fabric.bars = [b] ∧ b.scope = .domain ∧ b.tag = BitVec.ofNat 16 tag ∧ b.count = count) ∧
    (∀ w, c.seq.sleepTo = some w → w ≤ s.tick → ∃ t, exec (.sleepEnd n) s = .next t ∧ OnlyCore n s t ∧
      t.core n = { c with seq := { c.seq with sleepTo := none } }) ∧
    (∀ w, c.seq.waitw = some w → (w ≤ s.tick ∨ c.seq.wakeFlag = true) → ∃ t, exec (.waitwEnd n) s = .next t ∧ OnlyCore n s t ∧
      t.core n = { c with seq := { c.seq with waitw := none, wakeFlag := false } }) ∧
    (∀ id ring xd rest r, c.seq.ticketWait = (id, ring, xd) :: rest → s.ticketTurn n = true →
      s.ringOf n ring.toNat = some r → r.hasTicket = true → (∀ e ∈ c.eng.memq, e.performed = true) →
      ∃ t, exec (.ticketGrant n) s = .next t ∧ (t.core n).seq.ticketWait = rest ∧
        (t.core n).arch.x.getD xd.toNat 0 = (if xd = 0 then c.arch.x.getD 0 0 else r.ticket.zeroExtend 64) ∧
        t.fabric.rings.getD ring.toNat none = some { r with ticket := r.ticket + 1 } ∧ ∀ i ∈ (t.core n).eng.ilk, i.id ≠ id) ∧
    (∀ id ring xd rest, c.seq.ticketWait = (id, ring, xd) :: rest → s.ticketTurn n = true → s.ringOf n ring.toNat = none →
      (∀ e ∈ c.eng.memq, e.performed = true) → ∃ t, exec (.ticketGrant n) s = .next t ∧ (t.core n).seq.ticketWait = rest ∧
        (t.core n).arch.x.getD xd.toNat 0 = if xd = 0 then c.arch.x.getD 0 0 else BitVec.allOnes 64)

/-- R86, R90, R312: a stage takes the element that its SCONS waits for, and the SCONS completes when it has landed in its last;
an SPUB is taken up once its kin has ended and is promised then, and when every consumer has its element the SPUB completes;
one at whose boundary its stage retires, or changes its owner, asks for that pre-emption when it has been taken up. The
promise as a free tick is log 21, the order of elements and of SPUBs is log 25, and the landing in one instant is log 23. -/
def Obligations.StageElements : Prop :=
  ∀ (s : State) (n op e : Nat) (o : EngOp) (l : LaceEntry), n < 256 → s.eng? n op = some o →
    let c := s.core n
    let Refused := fun (why : Nat) => ∃ t, exec (.stageElementLanded n op) s = .next t ∧ OpRefused n op why s t
    (∀ d, o.kind = .scons d →
      (o.accepted = false → s.engGo n op = true → c.arch.tokEnded o.kin = true →
        (c.arch.tokState o.kin = .refused → Refused 1) ∧
        (c.arch.tokState o.kin ≠ .refused → s.stageAt n = none → Refused 14) ∧
        (c.arch.tokState o.kin ≠ .refused → s.stageAt n = some (e, l) →
          let why := stageReason (s.last n d) l.ibytes true
          (why ≠ 0 → Refused why) ∧
          (why = 0 → s.nextElement n e l = .error () → Refused 13) ∧
          (let src := s.last n (BitVec.ofNat 6 l.srcLast)
           ∀ bs, why = 0 → s.nextElement n e l = .ok (some bs) → e < 256 → (l.depth ≠ 0 ∨ src.space ≠ 0 ∨
              (s.Calm ∧ ∃ b, s.PlainAt (src.iaBase + l.cons * l.ibytes) b l.ibytes)) → ∃ t u, exec (.stageElementLanded n op) s = .next t ∧
            t.entry? e = some { l with cons := l.cons + 1 } ∧ t.eng? n op = some u ∧ u.accepted = true ∧
            u.msg.map (·.payload) = some bs ∧ s.tick ≤ u.aux ∧
            { (t.core n).arch with ctl := c.arch.ctl } = c.arch))) ∧
      (∀ m, o.accepted = true → o.aux + o.late ≤ s.tick → s.opHole n o = none → s.opWaits n o = false → o.msg = some m →
        let dst := (s.sidesOf n o).dstLast
        ∃ t, exec (.stageElementLanded n op) s = .next t ∧ OpCompleted n op 0 s t ∧
          (dst.space = 1 → c.spad.wf = true → ∀ i < m.payload.length, (t.core n).spad.read (dst.base + i) = m.payload.getD i 0))) ∧
    (s.entry? e = some l → (∀ x ∈ s.work.elems, x.entry = e → x.waiting ≠ []) → ∀ q d, s.readySpub l = some (n, q) → q.kind = .spub d →
      c.arch.tokState q.kin ≠ .refused → s.isFinal e = false → stageReason (s.last n d) l.obytes false = 0 → s.opHole n q = none →
      e < 256 → ((s.last n d).space ≠ 0 ∨ (s.Calm ∧ s.errors.poison = [] ∧ ∀ p < 64, ∀ l ∈ (s.rod p).slice.lines, l.poison = false)) → ∃ t x due, exec (.elementPublished e) s = .next t ∧ t.entry? e = some { l with pub := l.pub + 1 } ∧
        t.work.elems = s.work.elems ++ [x] ∧ x.entry = e ∧ x.idx = l.pub ∧ x.waiting = s.consumers e l.pub ∧ x.op = q.id ∧
        ((s.last n d).space = 1 → x.bytes = c.spad.bytes (s.last n d).base (s.last n d).footprint) ∧
        (c.seq.pubStop = some (q.id, .stop) → ∀ k, s.kernelOf n = some k → (t.kernel? k.num).map (·.stop) = some (some .stop)) ∧
        (c.seq.pubStop = some (q.id, .transfer) → ∀ k, s.kernelOf n = some k →
          (k.stop = none → (t.kernel? k.num).map (·.stop) = some (some .transfer)) ∧
          (k.stop ≠ none → (t.kernel? k.num).map (·.transferDue) = some true)) ∧
        s.tick ≤ due ∧ ∀ p ∈ (t.core n).arch.ops, p.id = q.id → p.st = .promised ∧ p.promise = some due) ∧
    (∀ x, s.entry? e = some l → (s.work.elems.find? fun x => x.entry == e && x.waiting.isEmpty && decide (x.ready ≤ s.tick)) = some x →
      s.phys x.core < 256 → (x.core < 256 ∨ ∃ k, s.kernel? ((x.core - 256) / 256) = some k ∧ k.st = .placed) →
      ∃ t, exec (.elementPublished e) s = .next t ∧ t.work.elems = s.work.elems.erase x ∧ OpCompleted (s.phys x.core) x.op 0 s t)

/-- R338, R339, R348, R61, R384, R405: the gate registers and BAR0. A write of GATECFG switches the bank, but to one that is
loading, which sets ERR; GATELOAD with GO starts a load into the bank that is not in use, or sets ERR, and the bank holds
the bytes at its end; a write of BAR0 reaches the launch queue or the debug register at its offset, and none elsewhere; a
read of a context status entry gives its three doublewords and zero. That a write keeps the value before it for its own tick
is log 35's reading of R348. -/
def Obligations.GateAndBar0 : Prop :=
  ∀ (s : State) (d q n off : Nat) (v : BitVec 64), d < 2 → q < 64 → n < 256 →
    let o := s.die d
    let cfg := v &&& 0xFF807FFFC3#64
    let bank : BitVec 1 := v.extractLsb' 1 1
    let Die := fun (i : Instr) (w : Machine.Die) => ∃ t, exec i s = .next t ∧ OnlyDie d s t ∧ t.die d = w
    let err := 0x4000000000000000#64
    let kept := (if v.getLsbD 62 then o.gateload &&& ~~~err else o.gateload) &&& ~~~0x1FFFFFFFFFFFC0#64 ||| (v &&& 0x1FFFFFFFFFFFC0#64)
    let into : BitVec 1 := v.extractLsb' 52 1
    let src := (v.extractLsb' 6 46).toNat * 64
    let len := 2 * ((o.gatecfg.extractLsb' 16 7).toNat + 1) * (64 * ((o.gatecfg.extractLsb' 9 7).toNat + 1))
    let busy := o.load ≠ none ∨ (o.gatecfg.getLsbD 0 = true ∧ into = o.gatecfg.extractLsb' 1 1) ∨
      s.iaLocal src = false
    let before := if o.gateAt = some s.tick then o.gatePrev else o.gatecfg
    let setTo := fun g : BitVec 64 => { o with gatecfg := g, gatePrev := before, gateAt := some s.tick }
    ((∀ l, o.load = some l → l.bank ≠ bank) → Die (.gatecfgWrite d v) (setTo cfg)) ∧
    (∀ l, o.load = some l → l.bank = bank → Die (.gatecfgWrite d v)
      { setTo (cfg &&& ~~~2#64 ||| (o.gatecfg &&& 2#64)) with gateload := o.gateload ||| err }) ∧
    (v.getLsbD 61 = false → Die (.gateLoad d v) { o with gateload := kept }) ∧
    (v.getLsbD 61 = true → busy → Die (.gateLoad d v) { o with gateload := kept ||| err }) ∧
    (v.getLsbD 61 = true → ¬ busy → ∃ t till, exec (.gateLoad d v) s = .next t ∧ OnlyDie d { s with fresh := s.fresh + 1 } t ∧
      s.tick < till ∧ t.die d = { o with gateload := kept, load := some ⟨into, src, len, till⟩ }) ∧
    (∀ l, o.load = some l → l.till ≤ s.tick → o.bank0.wf = true → o.bank1.wf = true → s.errors.planted = [] → s.errors.retiring = [] →
      (∀ p ∈ pagesOf l.src l.len, (s.iaLoc (Nat.max l.src (p * 65536)) false).isSome = true) →
      ∃ t, exec (.gateLoadComplete d) s = .next t ∧ t = { s with dram := t.dram, pm := t.pm, dies := t.dies } ∧
        (∀ j, j ≠ d → t.die j = s.die j) ∧ (t.die d).load = none ∧ (t.die d).gateload = o.gateload ∧
        ∀ i, (if l.bank = 1 then (t.die d).bank1 else (t.die d).bank0).read i =
          if i < l.len then (t.sideBytes .mem l.src l.len).getD i 0 else (if l.bank = 1 then o.bank1 else o.bank0).read i) ∧
    (∃ t, exec (.bar0RegisterWrite (0x10000 + 32 * q) v) s = .next t ∧ t.lq q = { s.lq q with base := v &&& 0xFFFFFFFFFFC0#64 } ∧
      t = { s with host := { s.host with lqs := t.host.lqs } }) ∧
    exec (.bar0RegisterWrite (0x10008 + 32 * q) v) s = exec (.lqcfgWrite q v) s ∧
    exec (.bar0RegisterWrite (0x10010 + 32 * q) v) s = exec (.doorbell q v) s ∧
    (v.extractLsb' 1 5 = 0 → ∃ t, exec (.bar0RegisterWrite (0x20000 + 16 * n) v) s = .next t ∧ OnlyCore n s t ∧
      t.core n = { s.core n with dbg := { (s.core n).dbg with attach := v.getLsbD 0 } }) ∧
    (∀ a i, a < 512 → i < 4 → s.bar0 (0x30000 + 32 * a + 8 * i) = (match i with
      | 0 => (s.status a).ctxst0
      | 1 => (s.status a).ctxend
      | 2 => (s.status a).ctxdet
      | _ => 0)) ∧
    (off < 0x10000 ∨ (0x10800 ≤ off ∧ off < 0x20000) ∨ 0x21000 ≤ off → exec (.bar0RegisterWrite off v) s = .next s)

/-! ### The whole machine -/

/-- Table 22-4 and the maps that it names: what reset leaves. Time is zero, no register of the map reads other than as its reset
says, no context lives, no kernel and no image stands, no core runs and no launch queue or channel end is in use; every
memory is in its canonical form. (What the registers that the map does not hold are at reset is the model's choice, log 4,
and is not said here; DRAM with nothing written is log 9.) -/
def Obligations.ResetState : Prop :=
  let s := State.reset
  s.MemOk ∧ s.tick = 0 ∧ s.dram = [] ∧ s.work.kernels = [] ∧ s.work.images = [] ∧ s.errors.frozen = false ∧
  (∀ a < 512, (s.ctx a).live = false ∧ (s.ctx a).free = true) ∧
  (∀ n < 256, (s.core n).unit.kernel = none ∧ (s.core n).dbg.attach = false) ∧
  (∀ q < 64, (s.lq q).en = false ∧ (s.lq q).head = 0 ∧ (s.lq q).tail = 0) ∧
  (∀ i < 256, (s.chan i).en = false ∧ (s.chan i).queue = []) ∧
  ∀ n < 256, ∀ i < 512, ({ s with act := n } : State).ctlRead i = (match i with
    | 0x044 => BitVec.ofNat 64 (64 * 2 ^ 24 + 7 * 2 ^ 20 + 7 * 2 ^ 17 + 5 * 2 ^ 9 + 5 * 2 ^ 6 + 5 * 2 ^ 3 + 5)
    | 0x140 => 6144
    | 0x144 => 272
    | 0x145 => BitVec.ofNat 64 (2400 * 2 ^ 16 + 2800)
    | 0x146 => BitVec.ofNat 64 (3 * 2 ^ 10 + 380)
    | 0x152 => 2560
    | 0x153 => 6144
    | 0x163 => 4
    | 0x169 => 0x1004
    | 0x1F0 => ident n
    | _ => 0)

/-- Tables 7-7 to 7-12: decode and encode agree. Every well-formed slot instruction, with every operand at every value, stop bit
and weight, has a word, and the word decodes to it; and every word that decodes is the word of what it decodes to, so no two
instructions share one and no bit of a word is without a meaning. -/
def Obligations.RoundTrip : Prop :=
  (∀ (i : Instr) (stop : Bool) (weight : BitVec 2), i.isSlot = true → i.WellFormed →
    ∃ w, encodeSlot stop weight i = some w ∧ decodeSlot w = .ok { stop := stop, weight := weight, instr := i }) ∧
  (∀ (w : BitVec 32) (sl : Slot), decodeSlot w = .ok sl →
    sl.instr.isSlot = true ∧ sl.instr.WellFormed ∧ encodeSlot sl.stop sl.weight sl.instr = some w)

/-- R115, R116, R120, R207: a step runs the decoded instruction. Where a core has the turn and nothing keeps the bundle at its
program counter from issuing, the step is `exec` of its slots, each reading the registers as they stood before the bundle,
with what issuing does around them; for a bundle of one word it is `exec` of the instruction that the word decodes to. A
bundle with a KLAUNCH asks first, and is held until the command can be answered as it issues (log 19). Between cycles, a
step from outside is `exec` of it, and so is the next happening that is due, and at the end of a tick what R321, R323, R334
and R240 order by the number of a core or a rod; a frozen package writes its records, and then takes steps from outside
alone (R393). Else a cycle begins, a wait ends or time goes on. The order of the slots, and that of outside steps and
happenings, is the model's (logs 1 and 3). -/
def Obligations.StepRunsDecoded : Prop :=
  ∀ s : State,
    (∀ r n ws is, s.Issues r n ws is → step s = s.issueAround r n ws (runSlots (slotOrder is.zipIdx))) ∧
    (∀ r n w i, decodeInstr w = .ok i → s.Issues r n [w] [i] →
      step s = s.issueAround r n [w] fun v => exec i { v with slot := 0 }) ∧
    (∀ r n ws is, s.Ready r n ws is → is.any isKlaunchSlot = true → ((s.turnStart n).core n).seq.klaunch = [] →
      step s = ((runSlots (is.zipIdx.filter fun e => isKlaunchSlot e.1) (s.turnStart n)).andThen fun v =>
        v.idleTurn n causeToken).andThen fun v => .next (v.closeCycle r)) ∧
    (∀ r n ws is t, s.Ready r n ws is → is.any isKlaunchSlot = true → ((s.turnStart n).core n).seq.klaunch ≠ [] →
      (s.turnStart n).issue n ws is = .next t → t.answered n = false →
      step s = ((s.turnStart n).idleTurn n causeToken).andThen fun v => .next (v.closeCycle r)) ∧
    (∀ j v, (s.errors.frozen = false → s.midRod = none) → (s.errors.frozen = true → s.errors.out ++ s.errors.records = []) →
      s.outside = some (j, v) → step s = exec j v) ∧
    (s.errors.frozen = true → s.errors.out ++ s.errors.records ≠ [] → step s = .next s.flushRecords) ∧
    (s.errors.frozen = true → s.errors.out ++ s.errors.records = [] → s.outside = none → step s = .fault .packageFrozen) ∧
    (∀ h, s.errors.frozen = false → s.midRod = none → s.outside = none → s.due = some h →
      ∃ i, h.Runs i ∧ step s = exec i s) ∧
    (s.errors.frozen = false → s.midRod = none → s.outside = none → s.due = none →
      (∀ r, s.newRod = some r → step s = .next (s.beginCycle r)) ∧
      (∀ n, s.newRod = none → s.waiter = some n → step s = .next (s.settle n)) ∧
      (s.newRod = none → s.waiter = none → (∀ h, s.tickEnd = some h → ∃ i, h.Runs i ∧ step s = exec i s) ∧
        (s.tickEnd = none → step s = .next s.advance)))

/-- No instruction stops the machine: from every state, with every operand, `exec` answers a next state; where an instruction
cannot have its effect it traps (R370), its operation is refused (R257), or it does nothing. What the next state holds the
statements of each instruction say. -/
def Obligations.EveryInstructionCompletes : Prop :=
  ∀ (i : Instr) (s : State), ∃ t, exec i s = .next t

/-- Log 9, and R2 for the canonical form: every step keeps every memory of the package in its canonical form, from any state
whose memories are in it. -/
def Obligations.MemoryStaysCanonical : Prop :=
  ∀ s t : State, s.MemOk → step s = .next t → t.MemOk

/-- Tables 7-7 to 7-12, and the words that the chapters spell out: the words decode to the instructions that they stand for. -/
def Obligations.DecodeWords : Prop :=
  decodeInstr 0x8067424C#32 = .ok (.mulhu 3 7 8 9) ∧
  decodeInstr 0x01020004#32 = .ok (.addi 4 0 4) ∧
  decodeInstr 0x05408003#32 = .ok (.ldelta 0 (.addr 1) 3) ∧
  decodeInstr 0x85020080#32 = .ok (.loop 0 4 1) ∧
  decodeInstr 0x8604A200#32 = .ok (.movax 5 1) ∧
  decodeInstr 0x07080007#32 = .ok (.trap 7) ∧
  decodeInstr 0x87040000#32 = .ok .halt ∧
  decodeInstr 0x87000000#32 = .ok .nop ∧
  decodeInstr 0xAC260C00#32 = .ok (.tcfg 2 .fp32 3 0 0) ∧
  decodeInstr 0x2A008701#32 = .ok (.vmaxexp 8 .db8) ∧
  decodeInstr 0xAA408702#32 = .ok (.vqnt 16 8 .db8) ∧
  decodeInstr 0xAD00800C#32 = .ok (.vste 2 0) ∧
  decodeInstr 0x35186001#32 = .ok (.std 0 3 0 1) ∧
  decodeInstr 0xB454A7FE#32 = .ok (.ldw 2 5 3 0x1FE) ∧
  decodeInstr 0xB7083411#32 = .ok (.cpycv 2 3 4 1) ∧
  decodeInstr 0xFFFFFFFF#32 = .error .reservedMajor
end

