-- ==== Sys2Proof/Laws/Memory.lean ====
section
/-!
SUPPORT. Memory in canonical form (log 9): what a byte reads after a write, and that every operation over a memory keeps the form.
-/
namespace Sys2Proof.Machine

@[simp] theorem Mem.wf_nil : Mem.wf [] = true := rfl

/-- Every address of a memory is above `a`. -/
def Mem.Above (a : Nat) (m : Mem) : Prop := ∀ e ∈ m, a < e.1

/-- The form of a memory that is not empty: a nonzero byte, every later address above its own, and the form of the rest. -/
theorem Mem.wf_cons (a : Nat) (v : Byte) (m : Mem) :
    Mem.wf ((a, v) :: m) = true ↔ v ≠ 0 ∧ Mem.Above a m ∧ Mem.wf m = true := by
  induction m generalizing a v with
  | nil => simp [Mem.wf, Mem.Above]
  | cons e m ih =>
    obtain ⟨b, w⟩ := e
    simp only [Mem.wf, Bool.and_eq_true, bne_iff_ne, decide_eq_true_eq, ih, Mem.Above, List.mem_cons, forall_eq_or_imp]
    constructor
    · rintro ⟨⟨hv, hab⟩, hw, hm, h⟩
      exact ⟨hv, ⟨hab, fun e he => Nat.lt_trans hab (hm e he)⟩, hw, hm, h⟩
    · rintro ⟨hv, ⟨hab, -⟩, hw, hm, h⟩
      exact ⟨⟨hv, hab⟩, hw, hm, h⟩

/-- A write brings no address but its own. -/
theorem Mem.mem_write {m : Mem} {a : Nat} {v : Byte} {e : Nat × Byte} (h : e ∈ m.write a v) : e = (a, v) ∨ e ∈ m := by
  induction m with
  | nil =>
    simp only [Mem.write] at h
    split at h <;> simp_all
  | cons f m ih =>
    obtain ⟨b, w⟩ := f
    simp only [Mem.write] at h
    split at h
    · split at h
      · exact .inr h
      · simpa using h
    · split at h
      · split at h
        · exact .inr (by simp [h])
        · rcases List.mem_cons.1 h with h | h
          · exact .inl h
          · exact .inr (by simp [h])
      · rcases List.mem_cons.1 h with h | h
        · exact .inr (by simp [h])
        · exact (ih h).imp_right fun h => by simp [h]

/-- A write keeps the form. -/
theorem Mem.write_wf {m : Mem} (a : Nat) (v : Byte) (h : m.wf = true) : (m.write a v).wf = true := by
  induction m with
  | nil => simp only [Mem.write]; split <;> simp_all [Mem.wf]
  | cons f m ih =>
    obtain ⟨b, w⟩ := f
    obtain ⟨hw, hb, hm⟩ := (Mem.wf_cons b w m).1 h
    simp only [Mem.write]
    split
    · next hab =>
      split
      · exact h
      · next hv =>
        refine (Mem.wf_cons a v _).2 ⟨hv, ?_, h⟩
        intro e he
        rcases List.mem_cons.1 he with rfl | he
        · exact hab
        · exact Nat.lt_trans hab (hb e he)
    · split
      · next hab =>
        subst hab
        split
        · exact hm
        · next hv => exact (Mem.wf_cons a v m).2 ⟨hv, hb, hm⟩
      · next h1 h2 =>
        refine (Mem.wf_cons b w _).2 ⟨hw, ?_, ih hm⟩
        intro e he
        rcases Mem.mem_write he with rfl | he
        · show b < a
          omega
        · exact hb e he

/-- Writes keep the form. -/
theorem Mem.writes_wf {m : Mem} (a : Nat) (bs : List Byte) (h : m.wf = true) : (m.writes a bs).wf = true := by
  induction bs generalizing m a with
  | nil => exact h
  | cons b bs ih => exact ih (a + 1) (Mem.write_wf a b h)

/-- Dropping bytes keeps the form. -/
theorem Mem.filter_wf {m : Mem} (p : Nat × Byte → Bool) (h : Mem.wf m = true) : Mem.wf (m.filter p) = true := by
  induction m with
  | nil => exact h
  | cons f m ih =>
    obtain ⟨b, w⟩ := f
    obtain ⟨hw, hb, hm⟩ := (Mem.wf_cons b w m).1 h
    rw [List.filter_cons]
    split
    · exact (Mem.wf_cons b w _).2 ⟨hw, fun e he => hb e (List.mem_filter.1 he).1, ih hm⟩
    · exact ih hm

/-- An address below every address listed reads 0. -/
theorem Mem.read_above {m : Mem} {a : Nat} (h : Mem.Above a m) : m.read a = 0 := by
  induction m with
  | nil => rfl
  | cons f m ih =>
    obtain ⟨b, w⟩ := f
    have hab : a < b := h (b, w) (by simp)
    rw [Mem.read, if_neg (by omega)]
    exact ih fun e he => h e (by simp [he])

/-- What a byte reads after a write: the byte written, and every other as before. -/
theorem Mem.read_write {m : Mem} (a b : Nat) (v : Byte) (h : m.wf = true) :
    (m.write a v).read b = if b = a then v else m.read b := by
  induction m with
  | nil =>
    simp only [Mem.write]
    split <;> simp_all [Mem.read]
  | cons f m ih =>
    obtain ⟨c, w⟩ := f
    obtain ⟨hw, hc, hm⟩ := (Mem.wf_cons c w m).1 h
    simp only [Mem.write]
    split
    · next hac =>
      have h0 : Mem.read ((c, w) :: m) a = 0 := by
        refine Mem.read_above fun e he => ?_
        rcases List.mem_cons.1 he with rfl | he
        · exact hac
        · exact Nat.lt_trans hac (hc e he)
      split
      · next hv =>
        split
        · next hb => subst hb; rw [h0, hv]
        · rfl
      · simp [Mem.read]
    · split
      · next hac =>
        subst hac
        split
        · next hv =>
          split
          · next hb => subst hb; rw [Mem.read_above hc, hv]
          · next hb => simp [Mem.read, hb]
        · simp only [Mem.read]
          split <;> rfl
      · next h1 h2 =>
        simp only [Mem.read, ih hm]
        split
        · next hb => subst hb; rw [if_neg (by omega)]
        · rfl

/-- Bytes read after bytes written: those written, lowest first, and every other as before. -/
theorem Mem.read_writes {m : Mem} (a b : Nat) (bs : List Byte) (h : m.wf = true) :
    (m.writes a bs).read b = if a ≤ b ∧ b < a + bs.length then bs.getD (b - a) 0 else m.read b := by
  induction bs generalizing m a with
  | nil =>
    rw [if_neg (by simp)]
    rfl
  | cons c bs ih =>
    rw [Mem.writes, ih (a + 1) (Mem.write_wf a c h), Mem.read_write a b c h]
    simp only [List.length_cons]
    by_cases hb : b = a
    · subst hb
      rw [if_neg (by omega), if_pos (by simp), if_pos (by omega)]
      simp
    · by_cases hin : a + 1 ≤ b ∧ b < a + 1 + bs.length
      · rw [if_pos hin, if_pos (by omega)]
        have : b - a = (b - (a + 1)) + 1 := by omega
        rw [this]
        simp
      · rw [if_neg hin, if_neg hb, if_neg (by omega)]

end Sys2Proof.Machine
end

