-- ==== Sys2Proof/Laws/State.lean ====
section
/-!
SUPPORT. What each update of the state, and of a core, leaves of every field: one lemma a field an update, each true by unfolding.
-/
namespace Sys2Proof.Machine

/-! ### `State.setCore` -/

@[simp] theorem State.setCore_now (s : State) (i : Nat) (c : Core) : (s.setCore i c).now = s.now := rfl
@[simp] theorem State.setCore_ticked (s : State) (i : Nat) (c : Core) : (s.setCore i c).ticked = s.ticked := rfl
@[simp] theorem State.setCore_act (s : State) (i : Nat) (c : Core) : (s.setCore i c).act = s.act := rfl
@[simp] theorem State.setCore_slot (s : State) (i : Nat) (c : Core) : (s.setCore i c).slot = s.slot := rfl
@[simp] theorem State.setCore_fresh (s : State) (i : Nat) (c : Core) : (s.setCore i c).fresh = s.fresh := rfl
@[simp] theorem State.setCore_agenda (s : State) (i : Nat) (c : Core) : (s.setCore i c).agenda = s.agenda := rfl
@[simp] theorem State.setCore_rods (s : State) (i : Nat) (c : Core) : (s.setCore i c).rods = s.rods := rfl
@[simp] theorem State.setCore_panels (s : State) (i : Nat) (c : Core) : (s.setCore i c).panels = s.panels := rfl
@[simp] theorem State.setCore_dies (s : State) (i : Nat) (c : Core) : (s.setCore i c).dies = s.dies := rfl
@[simp] theorem State.setCore_dram (s : State) (i : Nat) (c : Core) : (s.setCore i c).dram = s.dram := rfl
@[simp] theorem State.setCore_wrote (s : State) (i : Nat) (c : Core) : (s.setCore i c).wrote = s.wrote := rfl
@[simp] theorem State.setCore_seen (s : State) (i : Nat) (c : Core) : (s.setCore i c).seen = s.seen := rfl
@[simp] theorem State.setCore_past (s : State) (i : Nat) (c : Core) : (s.setCore i c).past = s.past := rfl
@[simp] theorem State.setCore_regs (s : State) (i : Nat) (c : Core) : (s.setCore i c).regs = s.regs := rfl
@[simp] theorem State.setCore_power (s : State) (i : Nat) (c : Core) : (s.setCore i c).power = s.power := rfl
@[simp] theorem State.setCore_pm (s : State) (i : Nat) (c : Core) : (s.setCore i c).pm = s.pm := rfl
@[simp] theorem State.setCore_errors (s : State) (i : Nat) (c : Core) : (s.setCore i c).errors = s.errors := rfl
@[simp] theorem State.setCore_host (s : State) (i : Nat) (c : Core) : (s.setCore i c).host = s.host := rfl
@[simp] theorem State.setCore_work (s : State) (i : Nat) (c : Core) : (s.setCore i c).work = s.work := rfl
@[simp] theorem State.setCore_fabric (s : State) (i : Nat) (c : Core) : (s.setCore i c).fabric = s.fabric := rfl

/-! ### `State.modCore` -/

@[simp] theorem State.modCore_now (s : State) (i : Nat) (f : Core → Core) : (s.modCore i f).now = s.now := rfl
@[simp] theorem State.modCore_ticked (s : State) (i : Nat) (f : Core → Core) : (s.modCore i f).ticked = s.ticked := rfl
@[simp] theorem State.modCore_act (s : State) (i : Nat) (f : Core → Core) : (s.modCore i f).act = s.act := rfl
@[simp] theorem State.modCore_slot (s : State) (i : Nat) (f : Core → Core) : (s.modCore i f).slot = s.slot := rfl
@[simp] theorem State.modCore_fresh (s : State) (i : Nat) (f : Core → Core) : (s.modCore i f).fresh = s.fresh := rfl
@[simp] theorem State.modCore_agenda (s : State) (i : Nat) (f : Core → Core) : (s.modCore i f).agenda = s.agenda := rfl
@[simp] theorem State.modCore_rods (s : State) (i : Nat) (f : Core → Core) : (s.modCore i f).rods = s.rods := rfl
@[simp] theorem State.modCore_panels (s : State) (i : Nat) (f : Core → Core) : (s.modCore i f).panels = s.panels := rfl
@[simp] theorem State.modCore_dies (s : State) (i : Nat) (f : Core → Core) : (s.modCore i f).dies = s.dies := rfl
@[simp] theorem State.modCore_dram (s : State) (i : Nat) (f : Core → Core) : (s.modCore i f).dram = s.dram := rfl
@[simp] theorem State.modCore_wrote (s : State) (i : Nat) (f : Core → Core) : (s.modCore i f).wrote = s.wrote := rfl
@[simp] theorem State.modCore_seen (s : State) (i : Nat) (f : Core → Core) : (s.modCore i f).seen = s.seen := rfl
@[simp] theorem State.modCore_past (s : State) (i : Nat) (f : Core → Core) : (s.modCore i f).past = s.past := rfl
@[simp] theorem State.modCore_regs (s : State) (i : Nat) (f : Core → Core) : (s.modCore i f).regs = s.regs := rfl
@[simp] theorem State.modCore_power (s : State) (i : Nat) (f : Core → Core) : (s.modCore i f).power = s.power := rfl
@[simp] theorem State.modCore_pm (s : State) (i : Nat) (f : Core → Core) : (s.modCore i f).pm = s.pm := rfl
@[simp] theorem State.modCore_errors (s : State) (i : Nat) (f : Core → Core) : (s.modCore i f).errors = s.errors := rfl
@[simp] theorem State.modCore_host (s : State) (i : Nat) (f : Core → Core) : (s.modCore i f).host = s.host := rfl
@[simp] theorem State.modCore_work (s : State) (i : Nat) (f : Core → Core) : (s.modCore i f).work = s.work := rfl
@[simp] theorem State.modCore_fabric (s : State) (i : Nat) (f : Core → Core) : (s.modCore i f).fabric = s.fabric := rfl

/-! ### `State.onMe` -/

@[simp] theorem State.onMe_now (s : State) (f : Core → Core) : (s.onMe f).now = s.now := rfl
@[simp] theorem State.onMe_ticked (s : State) (f : Core → Core) : (s.onMe f).ticked = s.ticked := rfl
@[simp] theorem State.onMe_act (s : State) (f : Core → Core) : (s.onMe f).act = s.act := rfl
@[simp] theorem State.onMe_slot (s : State) (f : Core → Core) : (s.onMe f).slot = s.slot := rfl
@[simp] theorem State.onMe_fresh (s : State) (f : Core → Core) : (s.onMe f).fresh = s.fresh := rfl
@[simp] theorem State.onMe_agenda (s : State) (f : Core → Core) : (s.onMe f).agenda = s.agenda := rfl
@[simp] theorem State.onMe_rods (s : State) (f : Core → Core) : (s.onMe f).rods = s.rods := rfl
@[simp] theorem State.onMe_panels (s : State) (f : Core → Core) : (s.onMe f).panels = s.panels := rfl
@[simp] theorem State.onMe_dies (s : State) (f : Core → Core) : (s.onMe f).dies = s.dies := rfl
@[simp] theorem State.onMe_dram (s : State) (f : Core → Core) : (s.onMe f).dram = s.dram := rfl
@[simp] theorem State.onMe_wrote (s : State) (f : Core → Core) : (s.onMe f).wrote = s.wrote := rfl
@[simp] theorem State.onMe_seen (s : State) (f : Core → Core) : (s.onMe f).seen = s.seen := rfl
@[simp] theorem State.onMe_past (s : State) (f : Core → Core) : (s.onMe f).past = s.past := rfl
@[simp] theorem State.onMe_regs (s : State) (f : Core → Core) : (s.onMe f).regs = s.regs := rfl
@[simp] theorem State.onMe_power (s : State) (f : Core → Core) : (s.onMe f).power = s.power := rfl
@[simp] theorem State.onMe_pm (s : State) (f : Core → Core) : (s.onMe f).pm = s.pm := rfl
@[simp] theorem State.onMe_errors (s : State) (f : Core → Core) : (s.onMe f).errors = s.errors := rfl
@[simp] theorem State.onMe_host (s : State) (f : Core → Core) : (s.onMe f).host = s.host := rfl
@[simp] theorem State.onMe_work (s : State) (f : Core → Core) : (s.onMe f).work = s.work := rfl
@[simp] theorem State.onMe_fabric (s : State) (f : Core → Core) : (s.onMe f).fabric = s.fabric := rfl

/-! ### `State.modRod` -/

@[simp] theorem State.modRod_now (s : State) (i : Nat) (f : Rod → Rod) : (s.modRod i f).now = s.now := rfl
@[simp] theorem State.modRod_ticked (s : State) (i : Nat) (f : Rod → Rod) : (s.modRod i f).ticked = s.ticked := rfl
@[simp] theorem State.modRod_act (s : State) (i : Nat) (f : Rod → Rod) : (s.modRod i f).act = s.act := rfl
@[simp] theorem State.modRod_slot (s : State) (i : Nat) (f : Rod → Rod) : (s.modRod i f).slot = s.slot := rfl
@[simp] theorem State.modRod_fresh (s : State) (i : Nat) (f : Rod → Rod) : (s.modRod i f).fresh = s.fresh := rfl
@[simp] theorem State.modRod_agenda (s : State) (i : Nat) (f : Rod → Rod) : (s.modRod i f).agenda = s.agenda := rfl
@[simp] theorem State.modRod_cores (s : State) (i : Nat) (f : Rod → Rod) : (s.modRod i f).cores = s.cores := rfl
@[simp] theorem State.modRod_panels (s : State) (i : Nat) (f : Rod → Rod) : (s.modRod i f).panels = s.panels := rfl
@[simp] theorem State.modRod_dies (s : State) (i : Nat) (f : Rod → Rod) : (s.modRod i f).dies = s.dies := rfl
@[simp] theorem State.modRod_dram (s : State) (i : Nat) (f : Rod → Rod) : (s.modRod i f).dram = s.dram := rfl
@[simp] theorem State.modRod_wrote (s : State) (i : Nat) (f : Rod → Rod) : (s.modRod i f).wrote = s.wrote := rfl
@[simp] theorem State.modRod_seen (s : State) (i : Nat) (f : Rod → Rod) : (s.modRod i f).seen = s.seen := rfl
@[simp] theorem State.modRod_past (s : State) (i : Nat) (f : Rod → Rod) : (s.modRod i f).past = s.past := rfl
@[simp] theorem State.modRod_regs (s : State) (i : Nat) (f : Rod → Rod) : (s.modRod i f).regs = s.regs := rfl
@[simp] theorem State.modRod_power (s : State) (i : Nat) (f : Rod → Rod) : (s.modRod i f).power = s.power := rfl
@[simp] theorem State.modRod_pm (s : State) (i : Nat) (f : Rod → Rod) : (s.modRod i f).pm = s.pm := rfl
@[simp] theorem State.modRod_errors (s : State) (i : Nat) (f : Rod → Rod) : (s.modRod i f).errors = s.errors := rfl
@[simp] theorem State.modRod_host (s : State) (i : Nat) (f : Rod → Rod) : (s.modRod i f).host = s.host := rfl
@[simp] theorem State.modRod_work (s : State) (i : Nat) (f : Rod → Rod) : (s.modRod i f).work = s.work := rfl
@[simp] theorem State.modRod_fabric (s : State) (i : Nat) (f : Rod → Rod) : (s.modRod i f).fabric = s.fabric := rfl

/-! ### `State.modPanel` -/

@[simp] theorem State.modPanel_now (s : State) (i : Nat) (f : Panel → Panel) : (s.modPanel i f).now = s.now := rfl
@[simp] theorem State.modPanel_ticked (s : State) (i : Nat) (f : Panel → Panel) : (s.modPanel i f).ticked = s.ticked := rfl
@[simp] theorem State.modPanel_act (s : State) (i : Nat) (f : Panel → Panel) : (s.modPanel i f).act = s.act := rfl
@[simp] theorem State.modPanel_slot (s : State) (i : Nat) (f : Panel → Panel) : (s.modPanel i f).slot = s.slot := rfl
@[simp] theorem State.modPanel_fresh (s : State) (i : Nat) (f : Panel → Panel) : (s.modPanel i f).fresh = s.fresh := rfl
@[simp] theorem State.modPanel_agenda (s : State) (i : Nat) (f : Panel → Panel) : (s.modPanel i f).agenda = s.agenda := rfl
@[simp] theorem State.modPanel_cores (s : State) (i : Nat) (f : Panel → Panel) : (s.modPanel i f).cores = s.cores := rfl
@[simp] theorem State.modPanel_rods (s : State) (i : Nat) (f : Panel → Panel) : (s.modPanel i f).rods = s.rods := rfl
@[simp] theorem State.modPanel_dies (s : State) (i : Nat) (f : Panel → Panel) : (s.modPanel i f).dies = s.dies := rfl
@[simp] theorem State.modPanel_dram (s : State) (i : Nat) (f : Panel → Panel) : (s.modPanel i f).dram = s.dram := rfl
@[simp] theorem State.modPanel_wrote (s : State) (i : Nat) (f : Panel → Panel) : (s.modPanel i f).wrote = s.wrote := rfl
@[simp] theorem State.modPanel_seen (s : State) (i : Nat) (f : Panel → Panel) : (s.modPanel i f).seen = s.seen := rfl
@[simp] theorem State.modPanel_past (s : State) (i : Nat) (f : Panel → Panel) : (s.modPanel i f).past = s.past := rfl
@[simp] theorem State.modPanel_regs (s : State) (i : Nat) (f : Panel → Panel) : (s.modPanel i f).regs = s.regs := rfl
@[simp] theorem State.modPanel_power (s : State) (i : Nat) (f : Panel → Panel) : (s.modPanel i f).power = s.power := rfl
@[simp] theorem State.modPanel_pm (s : State) (i : Nat) (f : Panel → Panel) : (s.modPanel i f).pm = s.pm := rfl
@[simp] theorem State.modPanel_errors (s : State) (i : Nat) (f : Panel → Panel) : (s.modPanel i f).errors = s.errors := rfl
@[simp] theorem State.modPanel_host (s : State) (i : Nat) (f : Panel → Panel) : (s.modPanel i f).host = s.host := rfl
@[simp] theorem State.modPanel_work (s : State) (i : Nat) (f : Panel → Panel) : (s.modPanel i f).work = s.work := rfl
@[simp] theorem State.modPanel_fabric (s : State) (i : Nat) (f : Panel → Panel) : (s.modPanel i f).fabric = s.fabric := rfl

/-! ### `State.modDie` -/

@[simp] theorem State.modDie_now (s : State) (i : Nat) (f : Die → Die) : (s.modDie i f).now = s.now := rfl
@[simp] theorem State.modDie_ticked (s : State) (i : Nat) (f : Die → Die) : (s.modDie i f).ticked = s.ticked := rfl
@[simp] theorem State.modDie_act (s : State) (i : Nat) (f : Die → Die) : (s.modDie i f).act = s.act := rfl
@[simp] theorem State.modDie_slot (s : State) (i : Nat) (f : Die → Die) : (s.modDie i f).slot = s.slot := rfl
@[simp] theorem State.modDie_fresh (s : State) (i : Nat) (f : Die → Die) : (s.modDie i f).fresh = s.fresh := rfl
@[simp] theorem State.modDie_agenda (s : State) (i : Nat) (f : Die → Die) : (s.modDie i f).agenda = s.agenda := rfl
@[simp] theorem State.modDie_cores (s : State) (i : Nat) (f : Die → Die) : (s.modDie i f).cores = s.cores := rfl
@[simp] theorem State.modDie_rods (s : State) (i : Nat) (f : Die → Die) : (s.modDie i f).rods = s.rods := rfl
@[simp] theorem State.modDie_panels (s : State) (i : Nat) (f : Die → Die) : (s.modDie i f).panels = s.panels := rfl
@[simp] theorem State.modDie_dram (s : State) (i : Nat) (f : Die → Die) : (s.modDie i f).dram = s.dram := rfl
@[simp] theorem State.modDie_wrote (s : State) (i : Nat) (f : Die → Die) : (s.modDie i f).wrote = s.wrote := rfl
@[simp] theorem State.modDie_seen (s : State) (i : Nat) (f : Die → Die) : (s.modDie i f).seen = s.seen := rfl
@[simp] theorem State.modDie_past (s : State) (i : Nat) (f : Die → Die) : (s.modDie i f).past = s.past := rfl
@[simp] theorem State.modDie_regs (s : State) (i : Nat) (f : Die → Die) : (s.modDie i f).regs = s.regs := rfl
@[simp] theorem State.modDie_power (s : State) (i : Nat) (f : Die → Die) : (s.modDie i f).power = s.power := rfl
@[simp] theorem State.modDie_pm (s : State) (i : Nat) (f : Die → Die) : (s.modDie i f).pm = s.pm := rfl
@[simp] theorem State.modDie_errors (s : State) (i : Nat) (f : Die → Die) : (s.modDie i f).errors = s.errors := rfl
@[simp] theorem State.modDie_host (s : State) (i : Nat) (f : Die → Die) : (s.modDie i f).host = s.host := rfl
@[simp] theorem State.modDie_work (s : State) (i : Nat) (f : Die → Die) : (s.modDie i f).work = s.work := rfl
@[simp] theorem State.modDie_fabric (s : State) (i : Nat) (f : Die → Die) : (s.modDie i f).fabric = s.fabric := rfl

/-! ### `State.modKernel` -/

@[simp] theorem State.modKernel_now (s : State) (n : Nat) (f : Kernel → Kernel) : (s.modKernel n f).now = s.now := rfl
@[simp] theorem State.modKernel_ticked (s : State) (n : Nat) (f : Kernel → Kernel) : (s.modKernel n f).ticked = s.ticked := rfl
@[simp] theorem State.modKernel_act (s : State) (n : Nat) (f : Kernel → Kernel) : (s.modKernel n f).act = s.act := rfl
@[simp] theorem State.modKernel_slot (s : State) (n : Nat) (f : Kernel → Kernel) : (s.modKernel n f).slot = s.slot := rfl
@[simp] theorem State.modKernel_fresh (s : State) (n : Nat) (f : Kernel → Kernel) : (s.modKernel n f).fresh = s.fresh := rfl
@[simp] theorem State.modKernel_agenda (s : State) (n : Nat) (f : Kernel → Kernel) : (s.modKernel n f).agenda = s.agenda := rfl
@[simp] theorem State.modKernel_cores (s : State) (n : Nat) (f : Kernel → Kernel) : (s.modKernel n f).cores = s.cores := rfl
@[simp] theorem State.modKernel_rods (s : State) (n : Nat) (f : Kernel → Kernel) : (s.modKernel n f).rods = s.rods := rfl
@[simp] theorem State.modKernel_panels (s : State) (n : Nat) (f : Kernel → Kernel) : (s.modKernel n f).panels = s.panels := rfl
@[simp] theorem State.modKernel_dies (s : State) (n : Nat) (f : Kernel → Kernel) : (s.modKernel n f).dies = s.dies := rfl
@[simp] theorem State.modKernel_dram (s : State) (n : Nat) (f : Kernel → Kernel) : (s.modKernel n f).dram = s.dram := rfl
@[simp] theorem State.modKernel_wrote (s : State) (n : Nat) (f : Kernel → Kernel) : (s.modKernel n f).wrote = s.wrote := rfl
@[simp] theorem State.modKernel_seen (s : State) (n : Nat) (f : Kernel → Kernel) : (s.modKernel n f).seen = s.seen := rfl
@[simp] theorem State.modKernel_past (s : State) (n : Nat) (f : Kernel → Kernel) : (s.modKernel n f).past = s.past := rfl
@[simp] theorem State.modKernel_regs (s : State) (n : Nat) (f : Kernel → Kernel) : (s.modKernel n f).regs = s.regs := rfl
@[simp] theorem State.modKernel_power (s : State) (n : Nat) (f : Kernel → Kernel) : (s.modKernel n f).power = s.power := rfl
@[simp] theorem State.modKernel_pm (s : State) (n : Nat) (f : Kernel → Kernel) : (s.modKernel n f).pm = s.pm := rfl
@[simp] theorem State.modKernel_errors (s : State) (n : Nat) (f : Kernel → Kernel) : (s.modKernel n f).errors = s.errors := rfl
@[simp] theorem State.modKernel_host (s : State) (n : Nat) (f : Kernel → Kernel) : (s.modKernel n f).host = s.host := rfl
@[simp] theorem State.modKernel_fabric (s : State) (n : Nat) (f : Kernel → Kernel) : (s.modKernel n f).fabric = s.fabric := rfl
@[simp] theorem State.modKernel_work_ctxs (s : State) (n : Nat) (f : Kernel → Kernel) : (s.modKernel n f).work.ctxs = s.work.ctxs := rfl
@[simp] theorem State.modKernel_work_status (s : State) (n : Nat) (f : Kernel → Kernel) : (s.modKernel n f).work.status = s.work.status := rfl
@[simp] theorem State.modKernel_work_images (s : State) (n : Nat) (f : Kernel → Kernel) : (s.modKernel n f).work.images = s.work.images := rfl
@[simp] theorem State.modKernel_work_used (s : State) (n : Nat) (f : Kernel → Kernel) : (s.modKernel n f).work.used = s.work.used := rfl
@[simp] theorem State.modKernel_work_head (s : State) (n : Nat) (f : Kernel → Kernel) : (s.modKernel n f).work.head = s.work.head := rfl
@[simp] theorem State.modKernel_work_lace (s : State) (n : Nat) (f : Kernel → Kernel) : (s.modKernel n f).work.lace = s.work.lace := rfl
@[simp] theorem State.modKernel_work_pipes (s : State) (n : Nat) (f : Kernel → Kernel) : (s.modKernel n f).work.pipes = s.work.pipes := rfl
@[simp] theorem State.modKernel_work_elems (s : State) (n : Nat) (f : Kernel → Kernel) : (s.modKernel n f).work.elems = s.work.elems := rfl
@[simp] theorem State.modKernel_work_binds (s : State) (n : Nat) (f : Kernel → Kernel) : (s.modKernel n f).work.binds = s.work.binds := rfl

/-! ### `State.modCtx` -/

@[simp] theorem State.modCtx_now (s : State) (a : Nat) (f : Ctx → Ctx) : (s.modCtx a f).now = s.now := rfl
@[simp] theorem State.modCtx_ticked (s : State) (a : Nat) (f : Ctx → Ctx) : (s.modCtx a f).ticked = s.ticked := rfl
@[simp] theorem State.modCtx_act (s : State) (a : Nat) (f : Ctx → Ctx) : (s.modCtx a f).act = s.act := rfl
@[simp] theorem State.modCtx_slot (s : State) (a : Nat) (f : Ctx → Ctx) : (s.modCtx a f).slot = s.slot := rfl
@[simp] theorem State.modCtx_fresh (s : State) (a : Nat) (f : Ctx → Ctx) : (s.modCtx a f).fresh = s.fresh := rfl
@[simp] theorem State.modCtx_agenda (s : State) (a : Nat) (f : Ctx → Ctx) : (s.modCtx a f).agenda = s.agenda := rfl
@[simp] theorem State.modCtx_cores (s : State) (a : Nat) (f : Ctx → Ctx) : (s.modCtx a f).cores = s.cores := rfl
@[simp] theorem State.modCtx_rods (s : State) (a : Nat) (f : Ctx → Ctx) : (s.modCtx a f).rods = s.rods := rfl
@[simp] theorem State.modCtx_panels (s : State) (a : Nat) (f : Ctx → Ctx) : (s.modCtx a f).panels = s.panels := rfl
@[simp] theorem State.modCtx_dies (s : State) (a : Nat) (f : Ctx → Ctx) : (s.modCtx a f).dies = s.dies := rfl
@[simp] theorem State.modCtx_dram (s : State) (a : Nat) (f : Ctx → Ctx) : (s.modCtx a f).dram = s.dram := rfl
@[simp] theorem State.modCtx_wrote (s : State) (a : Nat) (f : Ctx → Ctx) : (s.modCtx a f).wrote = s.wrote := rfl
@[simp] theorem State.modCtx_seen (s : State) (a : Nat) (f : Ctx → Ctx) : (s.modCtx a f).seen = s.seen := rfl
@[simp] theorem State.modCtx_past (s : State) (a : Nat) (f : Ctx → Ctx) : (s.modCtx a f).past = s.past := rfl
@[simp] theorem State.modCtx_regs (s : State) (a : Nat) (f : Ctx → Ctx) : (s.modCtx a f).regs = s.regs := rfl
@[simp] theorem State.modCtx_power (s : State) (a : Nat) (f : Ctx → Ctx) : (s.modCtx a f).power = s.power := rfl
@[simp] theorem State.modCtx_pm (s : State) (a : Nat) (f : Ctx → Ctx) : (s.modCtx a f).pm = s.pm := rfl
@[simp] theorem State.modCtx_errors (s : State) (a : Nat) (f : Ctx → Ctx) : (s.modCtx a f).errors = s.errors := rfl
@[simp] theorem State.modCtx_host (s : State) (a : Nat) (f : Ctx → Ctx) : (s.modCtx a f).host = s.host := rfl
@[simp] theorem State.modCtx_fabric (s : State) (a : Nat) (f : Ctx → Ctx) : (s.modCtx a f).fabric = s.fabric := rfl
@[simp] theorem State.modCtx_work_status (s : State) (a : Nat) (f : Ctx → Ctx) : (s.modCtx a f).work.status = s.work.status := rfl
@[simp] theorem State.modCtx_work_images (s : State) (a : Nat) (f : Ctx → Ctx) : (s.modCtx a f).work.images = s.work.images := rfl
@[simp] theorem State.modCtx_work_used (s : State) (a : Nat) (f : Ctx → Ctx) : (s.modCtx a f).work.used = s.work.used := rfl
@[simp] theorem State.modCtx_work_kernels (s : State) (a : Nat) (f : Ctx → Ctx) : (s.modCtx a f).work.kernels = s.work.kernels := rfl
@[simp] theorem State.modCtx_work_head (s : State) (a : Nat) (f : Ctx → Ctx) : (s.modCtx a f).work.head = s.work.head := rfl
@[simp] theorem State.modCtx_work_lace (s : State) (a : Nat) (f : Ctx → Ctx) : (s.modCtx a f).work.lace = s.work.lace := rfl
@[simp] theorem State.modCtx_work_pipes (s : State) (a : Nat) (f : Ctx → Ctx) : (s.modCtx a f).work.pipes = s.work.pipes := rfl
@[simp] theorem State.modCtx_work_elems (s : State) (a : Nat) (f : Ctx → Ctx) : (s.modCtx a f).work.elems = s.work.elems := rfl
@[simp] theorem State.modCtx_work_binds (s : State) (a : Nat) (f : Ctx → Ctx) : (s.modCtx a f).work.binds = s.work.binds := rfl

/-! ### `State.modStatus` -/

@[simp] theorem State.modStatus_now (s : State) (a : Nat) (f : CtxStatus → CtxStatus) : (s.modStatus a f).now = s.now := rfl
@[simp] theorem State.modStatus_ticked (s : State) (a : Nat) (f : CtxStatus → CtxStatus) : (s.modStatus a f).ticked = s.ticked := rfl
@[simp] theorem State.modStatus_act (s : State) (a : Nat) (f : CtxStatus → CtxStatus) : (s.modStatus a f).act = s.act := rfl
@[simp] theorem State.modStatus_slot (s : State) (a : Nat) (f : CtxStatus → CtxStatus) : (s.modStatus a f).slot = s.slot := rfl
@[simp] theorem State.modStatus_fresh (s : State) (a : Nat) (f : CtxStatus → CtxStatus) : (s.modStatus a f).fresh = s.fresh := rfl
@[simp] theorem State.modStatus_agenda (s : State) (a : Nat) (f : CtxStatus → CtxStatus) : (s.modStatus a f).agenda = s.agenda := rfl
@[simp] theorem State.modStatus_cores (s : State) (a : Nat) (f : CtxStatus → CtxStatus) : (s.modStatus a f).cores = s.cores := rfl
@[simp] theorem State.modStatus_rods (s : State) (a : Nat) (f : CtxStatus → CtxStatus) : (s.modStatus a f).rods = s.rods := rfl
@[simp] theorem State.modStatus_panels (s : State) (a : Nat) (f : CtxStatus → CtxStatus) : (s.modStatus a f).panels = s.panels := rfl
@[simp] theorem State.modStatus_dies (s : State) (a : Nat) (f : CtxStatus → CtxStatus) : (s.modStatus a f).dies = s.dies := rfl
@[simp] theorem State.modStatus_dram (s : State) (a : Nat) (f : CtxStatus → CtxStatus) : (s.modStatus a f).dram = s.dram := rfl
@[simp] theorem State.modStatus_wrote (s : State) (a : Nat) (f : CtxStatus → CtxStatus) : (s.modStatus a f).wrote = s.wrote := rfl
@[simp] theorem State.modStatus_seen (s : State) (a : Nat) (f : CtxStatus → CtxStatus) : (s.modStatus a f).seen = s.seen := rfl
@[simp] theorem State.modStatus_past (s : State) (a : Nat) (f : CtxStatus → CtxStatus) : (s.modStatus a f).past = s.past := rfl
@[simp] theorem State.modStatus_regs (s : State) (a : Nat) (f : CtxStatus → CtxStatus) : (s.modStatus a f).regs = s.regs := rfl
@[simp] theorem State.modStatus_power (s : State) (a : Nat) (f : CtxStatus → CtxStatus) : (s.modStatus a f).power = s.power := rfl
@[simp] theorem State.modStatus_pm (s : State) (a : Nat) (f : CtxStatus → CtxStatus) : (s.modStatus a f).pm = s.pm := rfl
@[simp] theorem State.modStatus_errors (s : State) (a : Nat) (f : CtxStatus → CtxStatus) : (s.modStatus a f).errors = s.errors := rfl
@[simp] theorem State.modStatus_host (s : State) (a : Nat) (f : CtxStatus → CtxStatus) : (s.modStatus a f).host = s.host := rfl
@[simp] theorem State.modStatus_fabric (s : State) (a : Nat) (f : CtxStatus → CtxStatus) : (s.modStatus a f).fabric = s.fabric := rfl
@[simp] theorem State.modStatus_work_ctxs (s : State) (a : Nat) (f : CtxStatus → CtxStatus) : (s.modStatus a f).work.ctxs = s.work.ctxs := rfl
@[simp] theorem State.modStatus_work_images (s : State) (a : Nat) (f : CtxStatus → CtxStatus) : (s.modStatus a f).work.images = s.work.images := rfl
@[simp] theorem State.modStatus_work_used (s : State) (a : Nat) (f : CtxStatus → CtxStatus) : (s.modStatus a f).work.used = s.work.used := rfl
@[simp] theorem State.modStatus_work_kernels (s : State) (a : Nat) (f : CtxStatus → CtxStatus) : (s.modStatus a f).work.kernels = s.work.kernels := rfl
@[simp] theorem State.modStatus_work_head (s : State) (a : Nat) (f : CtxStatus → CtxStatus) : (s.modStatus a f).work.head = s.work.head := rfl
@[simp] theorem State.modStatus_work_lace (s : State) (a : Nat) (f : CtxStatus → CtxStatus) : (s.modStatus a f).work.lace = s.work.lace := rfl
@[simp] theorem State.modStatus_work_pipes (s : State) (a : Nat) (f : CtxStatus → CtxStatus) : (s.modStatus a f).work.pipes = s.work.pipes := rfl
@[simp] theorem State.modStatus_work_elems (s : State) (a : Nat) (f : CtxStatus → CtxStatus) : (s.modStatus a f).work.elems = s.work.elems := rfl
@[simp] theorem State.modStatus_work_binds (s : State) (a : Nat) (f : CtxStatus → CtxStatus) : (s.modStatus a f).work.binds = s.work.binds := rfl

/-! ### `State.modChan` -/

@[simp] theorem State.modChan_now (s : State) (i : Nat) (f : Chan → Chan) : (s.modChan i f).now = s.now := rfl
@[simp] theorem State.modChan_ticked (s : State) (i : Nat) (f : Chan → Chan) : (s.modChan i f).ticked = s.ticked := rfl
@[simp] theorem State.modChan_act (s : State) (i : Nat) (f : Chan → Chan) : (s.modChan i f).act = s.act := rfl
@[simp] theorem State.modChan_slot (s : State) (i : Nat) (f : Chan → Chan) : (s.modChan i f).slot = s.slot := rfl
@[simp] theorem State.modChan_fresh (s : State) (i : Nat) (f : Chan → Chan) : (s.modChan i f).fresh = s.fresh := rfl
@[simp] theorem State.modChan_agenda (s : State) (i : Nat) (f : Chan → Chan) : (s.modChan i f).agenda = s.agenda := rfl
@[simp] theorem State.modChan_cores (s : State) (i : Nat) (f : Chan → Chan) : (s.modChan i f).cores = s.cores := rfl
@[simp] theorem State.modChan_rods (s : State) (i : Nat) (f : Chan → Chan) : (s.modChan i f).rods = s.rods := rfl
@[simp] theorem State.modChan_panels (s : State) (i : Nat) (f : Chan → Chan) : (s.modChan i f).panels = s.panels := rfl
@[simp] theorem State.modChan_dies (s : State) (i : Nat) (f : Chan → Chan) : (s.modChan i f).dies = s.dies := rfl
@[simp] theorem State.modChan_dram (s : State) (i : Nat) (f : Chan → Chan) : (s.modChan i f).dram = s.dram := rfl
@[simp] theorem State.modChan_wrote (s : State) (i : Nat) (f : Chan → Chan) : (s.modChan i f).wrote = s.wrote := rfl
@[simp] theorem State.modChan_seen (s : State) (i : Nat) (f : Chan → Chan) : (s.modChan i f).seen = s.seen := rfl
@[simp] theorem State.modChan_past (s : State) (i : Nat) (f : Chan → Chan) : (s.modChan i f).past = s.past := rfl
@[simp] theorem State.modChan_regs (s : State) (i : Nat) (f : Chan → Chan) : (s.modChan i f).regs = s.regs := rfl
@[simp] theorem State.modChan_power (s : State) (i : Nat) (f : Chan → Chan) : (s.modChan i f).power = s.power := rfl
@[simp] theorem State.modChan_pm (s : State) (i : Nat) (f : Chan → Chan) : (s.modChan i f).pm = s.pm := rfl
@[simp] theorem State.modChan_errors (s : State) (i : Nat) (f : Chan → Chan) : (s.modChan i f).errors = s.errors := rfl
@[simp] theorem State.modChan_host (s : State) (i : Nat) (f : Chan → Chan) : (s.modChan i f).host = s.host := rfl
@[simp] theorem State.modChan_work (s : State) (i : Nat) (f : Chan → Chan) : (s.modChan i f).work = s.work := rfl
@[simp] theorem State.modChan_fabric_slots (s : State) (i : Nat) (f : Chan → Chan) : (s.modChan i f).fabric.slots = s.fabric.slots := rfl
@[simp] theorem State.modChan_fabric_switch (s : State) (i : Nat) (f : Chan → Chan) : (s.modChan i f).fabric.switch = s.fabric.switch := rfl
@[simp] theorem State.modChan_fabric_linkGen (s : State) (i : Nat) (f : Chan → Chan) : (s.modChan i f).fabric.linkGen = s.fabric.linkGen := rfl
@[simp] theorem State.modChan_fabric_bars (s : State) (i : Nat) (f : Chan → Chan) : (s.modChan i f).fabric.bars = s.fabric.bars := rfl
@[simp] theorem State.modChan_fabric_rings (s : State) (i : Nat) (f : Chan → Chan) : (s.modChan i f).fabric.rings = s.fabric.rings := rfl

/-! ### `State.modLq` -/

@[simp] theorem State.modLq_now (s : State) (q : Nat) (f : LaunchQ → LaunchQ) : (s.modLq q f).now = s.now := rfl
@[simp] theorem State.modLq_ticked (s : State) (q : Nat) (f : LaunchQ → LaunchQ) : (s.modLq q f).ticked = s.ticked := rfl
@[simp] theorem State.modLq_act (s : State) (q : Nat) (f : LaunchQ → LaunchQ) : (s.modLq q f).act = s.act := rfl
@[simp] theorem State.modLq_slot (s : State) (q : Nat) (f : LaunchQ → LaunchQ) : (s.modLq q f).slot = s.slot := rfl
@[simp] theorem State.modLq_fresh (s : State) (q : Nat) (f : LaunchQ → LaunchQ) : (s.modLq q f).fresh = s.fresh := rfl
@[simp] theorem State.modLq_agenda (s : State) (q : Nat) (f : LaunchQ → LaunchQ) : (s.modLq q f).agenda = s.agenda := rfl
@[simp] theorem State.modLq_cores (s : State) (q : Nat) (f : LaunchQ → LaunchQ) : (s.modLq q f).cores = s.cores := rfl
@[simp] theorem State.modLq_rods (s : State) (q : Nat) (f : LaunchQ → LaunchQ) : (s.modLq q f).rods = s.rods := rfl
@[simp] theorem State.modLq_panels (s : State) (q : Nat) (f : LaunchQ → LaunchQ) : (s.modLq q f).panels = s.panels := rfl
@[simp] theorem State.modLq_dies (s : State) (q : Nat) (f : LaunchQ → LaunchQ) : (s.modLq q f).dies = s.dies := rfl
@[simp] theorem State.modLq_dram (s : State) (q : Nat) (f : LaunchQ → LaunchQ) : (s.modLq q f).dram = s.dram := rfl
@[simp] theorem State.modLq_wrote (s : State) (q : Nat) (f : LaunchQ → LaunchQ) : (s.modLq q f).wrote = s.wrote := rfl
@[simp] theorem State.modLq_seen (s : State) (q : Nat) (f : LaunchQ → LaunchQ) : (s.modLq q f).seen = s.seen := rfl
@[simp] theorem State.modLq_past (s : State) (q : Nat) (f : LaunchQ → LaunchQ) : (s.modLq q f).past = s.past := rfl
@[simp] theorem State.modLq_regs (s : State) (q : Nat) (f : LaunchQ → LaunchQ) : (s.modLq q f).regs = s.regs := rfl
@[simp] theorem State.modLq_power (s : State) (q : Nat) (f : LaunchQ → LaunchQ) : (s.modLq q f).power = s.power := rfl
@[simp] theorem State.modLq_pm (s : State) (q : Nat) (f : LaunchQ → LaunchQ) : (s.modLq q f).pm = s.pm := rfl
@[simp] theorem State.modLq_errors (s : State) (q : Nat) (f : LaunchQ → LaunchQ) : (s.modLq q f).errors = s.errors := rfl
@[simp] theorem State.modLq_work (s : State) (q : Nat) (f : LaunchQ → LaunchQ) : (s.modLq q f).work = s.work := rfl
@[simp] theorem State.modLq_fabric (s : State) (q : Nat) (f : LaunchQ → LaunchQ) : (s.modLq q f).fabric = s.fabric := rfl
@[simp] theorem State.modLq_host_msix (s : State) (q : Nat) (f : LaunchQ → LaunchQ) : (s.modLq q f).host.msix = s.host.msix := rfl
@[simp] theorem State.modLq_host_links (s : State) (q : Nat) (f : LaunchQ → LaunchQ) : (s.modLq q f).host.links = s.host.links := rfl

/-! ### `Core.modArch` -/

@[simp] theorem Core.modArch_latch (c : Core) (f : Arch → Arch) : (c.modArch f).latch = c.latch := rfl
@[simp] theorem Core.modArch_spad (c : Core) (f : Arch → Arch) : (c.modArch f).spad = c.spad := rfl
@[simp] theorem Core.modArch_l1kb (c : Core) (f : Arch → Arch) : (c.modArch f).l1kb = c.l1kb := rfl
@[simp] theorem Core.modArch_l1 (c : Core) (f : Arch → Arch) : (c.modArch f).l1 = c.l1 := rfl
@[simp] theorem Core.modArch_pred (c : Core) (f : Arch → Arch) : (c.modArch f).pred = c.pred := rfl
@[simp] theorem Core.modArch_predBad (c : Core) (f : Arch → Arch) : (c.modArch f).predBad = c.predBad := rfl
@[simp] theorem Core.modArch_flaw (c : Core) (f : Arch → Arch) : (c.modArch f).flaw = c.flaw := rfl
@[simp] theorem Core.modArch_eng (c : Core) (f : Arch → Arch) : (c.modArch f).eng = c.eng := rfl
@[simp] theorem Core.modArch_seq (c : Core) (f : Arch → Arch) : (c.modArch f).seq = c.seq := rfl
@[simp] theorem Core.modArch_unit (c : Core) (f : Arch → Arch) : (c.modArch f).unit = c.unit := rfl
@[simp] theorem Core.modArch_acct (c : Core) (f : Arch → Arch) : (c.modArch f).acct = c.acct := rfl
@[simp] theorem Core.modArch_dbg (c : Core) (f : Arch → Arch) : (c.modArch f).dbg = c.dbg := rfl
@[simp] theorem Core.modArch_cyc (c : Core) (f : Arch → Arch) : (c.modArch f).cyc = c.cyc := rfl
@[simp] theorem Core.modArch_uid (c : Core) (f : Arch → Arch) : (c.modArch f).uid = c.uid := rfl
@[simp] theorem Core.modArch_view (c : Core) (f : Arch → Arch) : (c.modArch f).view = c.view := rfl
@[simp] theorem Core.modArch_l1Wait (c : Core) (f : Arch → Arch) : (c.modArch f).l1Wait = c.l1Wait := rfl

/-! ### `Core.post` -/

@[simp] theorem Core.post_latch (c : Core) (b : Nat) (v : PendVal) : (c.post b v).latch = c.latch := rfl
@[simp] theorem Core.post_spad (c : Core) (b : Nat) (v : PendVal) : (c.post b v).spad = c.spad := rfl
@[simp] theorem Core.post_l1kb (c : Core) (b : Nat) (v : PendVal) : (c.post b v).l1kb = c.l1kb := rfl
@[simp] theorem Core.post_l1 (c : Core) (b : Nat) (v : PendVal) : (c.post b v).l1 = c.l1 := rfl
@[simp] theorem Core.post_pred (c : Core) (b : Nat) (v : PendVal) : (c.post b v).pred = c.pred := rfl
@[simp] theorem Core.post_predBad (c : Core) (b : Nat) (v : PendVal) : (c.post b v).predBad = c.predBad := rfl
@[simp] theorem Core.post_flaw (c : Core) (b : Nat) (v : PendVal) : (c.post b v).flaw = c.flaw := rfl
@[simp] theorem Core.post_eng (c : Core) (b : Nat) (v : PendVal) : (c.post b v).eng = c.eng := rfl
@[simp] theorem Core.post_seq (c : Core) (b : Nat) (v : PendVal) : (c.post b v).seq = c.seq := rfl
@[simp] theorem Core.post_unit (c : Core) (b : Nat) (v : PendVal) : (c.post b v).unit = c.unit := rfl
@[simp] theorem Core.post_acct (c : Core) (b : Nat) (v : PendVal) : (c.post b v).acct = c.acct := rfl
@[simp] theorem Core.post_dbg (c : Core) (b : Nat) (v : PendVal) : (c.post b v).dbg = c.dbg := rfl
@[simp] theorem Core.post_cyc (c : Core) (b : Nat) (v : PendVal) : (c.post b v).cyc = c.cyc := rfl
@[simp] theorem Core.post_view (c : Core) (b : Nat) (v : PendVal) : (c.post b v).view = c.view := rfl
@[simp] theorem Core.post_l1Wait (c : Core) (b : Nat) (v : PendVal) : (c.post b v).l1Wait = c.l1Wait := rfl
@[simp] theorem Core.post_arch_pc (c : Core) (b : Nat) (v : PendVal) : (c.post b v).arch.pc = c.arch.pc := rfl
@[simp] theorem Core.post_arch_x (c : Core) (b : Nat) (v : PendVal) : (c.post b v).arch.x = c.arch.x := rfl
@[simp] theorem Core.post_arch_a (c : Core) (b : Nat) (v : PendVal) : (c.post b v).arch.a = c.arch.a := rfl
@[simp] theorem Core.post_arch_c (c : Core) (b : Nat) (v : PendVal) : (c.post b v).arch.c = c.arch.c := rfl
@[simp] theorem Core.post_arch_p (c : Core) (b : Nat) (v : PendVal) : (c.post b v).arch.p = c.arch.p := rfl
@[simp] theorem Core.post_arch_tiles (c : Core) (b : Nat) (v : PendVal) : (c.post b v).arch.tiles = c.arch.tiles := rfl
@[simp] theorem Core.post_arch_toks (c : Core) (b : Nat) (v : PendVal) : (c.post b v).arch.toks = c.arch.toks := rfl
@[simp] theorem Core.post_arch_sl (c : Core) (b : Nat) (v : PendVal) : (c.post b v).arch.sl = c.arch.sl := rfl
@[simp] theorem Core.post_arch_loops (c : Core) (b : Nat) (v : PendVal) : (c.post b v).arch.loops = c.arch.loops := rfl
@[simp] theorem Core.post_arch_ctl (c : Core) (b : Nat) (v : PendVal) : (c.post b v).arch.ctl = c.arch.ctl := rfl
@[simp] theorem Core.post_arch_priv (c : Core) (b : Nat) (v : PendVal) : (c.post b v).arch.priv = c.arch.priv := rfl
@[simp] theorem Core.post_arch_opReq (c : Core) (b : Nat) (v : PendVal) : (c.post b v).arch.opReq = c.arch.opReq := rfl
@[simp] theorem Core.post_arch_opNext (c : Core) (b : Nat) (v : PendVal) : (c.post b v).arch.opNext = c.arch.opNext := rfl
@[simp] theorem Core.post_arch_ops (c : Core) (b : Nat) (v : PendVal) : (c.post b v).arch.ops = c.arch.ops := rfl
@[simp] theorem Core.post_arch_bbars (c : Core) (b : Nat) (v : PendVal) : (c.post b v).arch.bbars = c.arch.bbars := rfl

/-! ### `Core.putA` -/

@[simp] theorem Core.putA_latch (c : Core) (r : BitVec 4) (v : Word) : (c.putA r v).latch = c.latch := rfl
@[simp] theorem Core.putA_spad (c : Core) (r : BitVec 4) (v : Word) : (c.putA r v).spad = c.spad := rfl
@[simp] theorem Core.putA_l1kb (c : Core) (r : BitVec 4) (v : Word) : (c.putA r v).l1kb = c.l1kb := rfl
@[simp] theorem Core.putA_l1 (c : Core) (r : BitVec 4) (v : Word) : (c.putA r v).l1 = c.l1 := rfl
@[simp] theorem Core.putA_pred (c : Core) (r : BitVec 4) (v : Word) : (c.putA r v).pred = c.pred := rfl
@[simp] theorem Core.putA_predBad (c : Core) (r : BitVec 4) (v : Word) : (c.putA r v).predBad = c.predBad := rfl
@[simp] theorem Core.putA_flaw (c : Core) (r : BitVec 4) (v : Word) : (c.putA r v).flaw = c.flaw := rfl
@[simp] theorem Core.putA_eng (c : Core) (r : BitVec 4) (v : Word) : (c.putA r v).eng = c.eng := rfl
@[simp] theorem Core.putA_seq (c : Core) (r : BitVec 4) (v : Word) : (c.putA r v).seq = c.seq := rfl
@[simp] theorem Core.putA_unit (c : Core) (r : BitVec 4) (v : Word) : (c.putA r v).unit = c.unit := rfl
@[simp] theorem Core.putA_acct (c : Core) (r : BitVec 4) (v : Word) : (c.putA r v).acct = c.acct := rfl
@[simp] theorem Core.putA_dbg (c : Core) (r : BitVec 4) (v : Word) : (c.putA r v).dbg = c.dbg := rfl
@[simp] theorem Core.putA_cyc (c : Core) (r : BitVec 4) (v : Word) : (c.putA r v).cyc = c.cyc := rfl
@[simp] theorem Core.putA_uid (c : Core) (r : BitVec 4) (v : Word) : (c.putA r v).uid = c.uid := rfl
@[simp] theorem Core.putA_view (c : Core) (r : BitVec 4) (v : Word) : (c.putA r v).view = c.view := rfl
@[simp] theorem Core.putA_l1Wait (c : Core) (r : BitVec 4) (v : Word) : (c.putA r v).l1Wait = c.l1Wait := rfl
@[simp] theorem Core.putA_arch_pc (c : Core) (r : BitVec 4) (v : Word) : (c.putA r v).arch.pc = c.arch.pc := rfl
@[simp] theorem Core.putA_arch_x (c : Core) (r : BitVec 4) (v : Word) : (c.putA r v).arch.x = c.arch.x := rfl
@[simp] theorem Core.putA_arch_c (c : Core) (r : BitVec 4) (v : Word) : (c.putA r v).arch.c = c.arch.c := rfl
@[simp] theorem Core.putA_arch_p (c : Core) (r : BitVec 4) (v : Word) : (c.putA r v).arch.p = c.arch.p := rfl
@[simp] theorem Core.putA_arch_tiles (c : Core) (r : BitVec 4) (v : Word) : (c.putA r v).arch.tiles = c.arch.tiles := rfl
@[simp] theorem Core.putA_arch_toks (c : Core) (r : BitVec 4) (v : Word) : (c.putA r v).arch.toks = c.arch.toks := rfl
@[simp] theorem Core.putA_arch_sl (c : Core) (r : BitVec 4) (v : Word) : (c.putA r v).arch.sl = c.arch.sl := rfl
@[simp] theorem Core.putA_arch_loops (c : Core) (r : BitVec 4) (v : Word) : (c.putA r v).arch.loops = c.arch.loops := rfl
@[simp] theorem Core.putA_arch_ctl (c : Core) (r : BitVec 4) (v : Word) : (c.putA r v).arch.ctl = c.arch.ctl := rfl
@[simp] theorem Core.putA_arch_priv (c : Core) (r : BitVec 4) (v : Word) : (c.putA r v).arch.priv = c.arch.priv := rfl
@[simp] theorem Core.putA_arch_opReq (c : Core) (r : BitVec 4) (v : Word) : (c.putA r v).arch.opReq = c.arch.opReq := rfl
@[simp] theorem Core.putA_arch_opNext (c : Core) (r : BitVec 4) (v : Word) : (c.putA r v).arch.opNext = c.arch.opNext := rfl
@[simp] theorem Core.putA_arch_ops (c : Core) (r : BitVec 4) (v : Word) : (c.putA r v).arch.ops = c.arch.ops := rfl
@[simp] theorem Core.putA_arch_bbars (c : Core) (r : BitVec 4) (v : Word) : (c.putA r v).arch.bbars = c.arch.bbars := rfl
@[simp] theorem Core.putA_arch_pend (c : Core) (r : BitVec 4) (v : Word) : (c.putA r v).arch.pend = c.arch.pend := rfl

/-! ### `Core.putC` -/

@[simp] theorem Core.putC_latch (c : Core) (r : BitVec 2) (v : BitVec 6) : (c.putC r v).latch = c.latch := rfl
@[simp] theorem Core.putC_spad (c : Core) (r : BitVec 2) (v : BitVec 6) : (c.putC r v).spad = c.spad := rfl
@[simp] theorem Core.putC_l1kb (c : Core) (r : BitVec 2) (v : BitVec 6) : (c.putC r v).l1kb = c.l1kb := rfl
@[simp] theorem Core.putC_l1 (c : Core) (r : BitVec 2) (v : BitVec 6) : (c.putC r v).l1 = c.l1 := rfl
@[simp] theorem Core.putC_pred (c : Core) (r : BitVec 2) (v : BitVec 6) : (c.putC r v).pred = c.pred := rfl
@[simp] theorem Core.putC_predBad (c : Core) (r : BitVec 2) (v : BitVec 6) : (c.putC r v).predBad = c.predBad := rfl
@[simp] theorem Core.putC_flaw (c : Core) (r : BitVec 2) (v : BitVec 6) : (c.putC r v).flaw = c.flaw := rfl
@[simp] theorem Core.putC_eng (c : Core) (r : BitVec 2) (v : BitVec 6) : (c.putC r v).eng = c.eng := rfl
@[simp] theorem Core.putC_seq (c : Core) (r : BitVec 2) (v : BitVec 6) : (c.putC r v).seq = c.seq := rfl
@[simp] theorem Core.putC_unit (c : Core) (r : BitVec 2) (v : BitVec 6) : (c.putC r v).unit = c.unit := rfl
@[simp] theorem Core.putC_acct (c : Core) (r : BitVec 2) (v : BitVec 6) : (c.putC r v).acct = c.acct := rfl
@[simp] theorem Core.putC_dbg (c : Core) (r : BitVec 2) (v : BitVec 6) : (c.putC r v).dbg = c.dbg := rfl
@[simp] theorem Core.putC_cyc (c : Core) (r : BitVec 2) (v : BitVec 6) : (c.putC r v).cyc = c.cyc := rfl
@[simp] theorem Core.putC_uid (c : Core) (r : BitVec 2) (v : BitVec 6) : (c.putC r v).uid = c.uid := rfl
@[simp] theorem Core.putC_view (c : Core) (r : BitVec 2) (v : BitVec 6) : (c.putC r v).view = c.view := rfl
@[simp] theorem Core.putC_l1Wait (c : Core) (r : BitVec 2) (v : BitVec 6) : (c.putC r v).l1Wait = c.l1Wait := rfl
@[simp] theorem Core.putC_arch_pc (c : Core) (r : BitVec 2) (v : BitVec 6) : (c.putC r v).arch.pc = c.arch.pc := rfl
@[simp] theorem Core.putC_arch_x (c : Core) (r : BitVec 2) (v : BitVec 6) : (c.putC r v).arch.x = c.arch.x := rfl
@[simp] theorem Core.putC_arch_a (c : Core) (r : BitVec 2) (v : BitVec 6) : (c.putC r v).arch.a = c.arch.a := rfl
@[simp] theorem Core.putC_arch_p (c : Core) (r : BitVec 2) (v : BitVec 6) : (c.putC r v).arch.p = c.arch.p := rfl
@[simp] theorem Core.putC_arch_tiles (c : Core) (r : BitVec 2) (v : BitVec 6) : (c.putC r v).arch.tiles = c.arch.tiles := rfl
@[simp] theorem Core.putC_arch_toks (c : Core) (r : BitVec 2) (v : BitVec 6) : (c.putC r v).arch.toks = c.arch.toks := rfl
@[simp] theorem Core.putC_arch_sl (c : Core) (r : BitVec 2) (v : BitVec 6) : (c.putC r v).arch.sl = c.arch.sl := rfl
@[simp] theorem Core.putC_arch_loops (c : Core) (r : BitVec 2) (v : BitVec 6) : (c.putC r v).arch.loops = c.arch.loops := rfl
@[simp] theorem Core.putC_arch_ctl (c : Core) (r : BitVec 2) (v : BitVec 6) : (c.putC r v).arch.ctl = c.arch.ctl := rfl
@[simp] theorem Core.putC_arch_priv (c : Core) (r : BitVec 2) (v : BitVec 6) : (c.putC r v).arch.priv = c.arch.priv := rfl
@[simp] theorem Core.putC_arch_opReq (c : Core) (r : BitVec 2) (v : BitVec 6) : (c.putC r v).arch.opReq = c.arch.opReq := rfl
@[simp] theorem Core.putC_arch_opNext (c : Core) (r : BitVec 2) (v : BitVec 6) : (c.putC r v).arch.opNext = c.arch.opNext := rfl
@[simp] theorem Core.putC_arch_ops (c : Core) (r : BitVec 2) (v : BitVec 6) : (c.putC r v).arch.ops = c.arch.ops := rfl
@[simp] theorem Core.putC_arch_bbars (c : Core) (r : BitVec 2) (v : BitVec 6) : (c.putC r v).arch.bbars = c.arch.bbars := rfl
@[simp] theorem Core.putC_arch_pend (c : Core) (r : BitVec 2) (v : BitVec 6) : (c.putC r v).arch.pend = c.arch.pend := rfl

/-! ### `Core.raiseNow` -/

@[simp] theorem Core.raiseNow_latch (c : Core) (f : Flags) : (c.raiseNow f).latch = c.latch := rfl
@[simp] theorem Core.raiseNow_spad (c : Core) (f : Flags) : (c.raiseNow f).spad = c.spad := rfl
@[simp] theorem Core.raiseNow_l1kb (c : Core) (f : Flags) : (c.raiseNow f).l1kb = c.l1kb := rfl
@[simp] theorem Core.raiseNow_l1 (c : Core) (f : Flags) : (c.raiseNow f).l1 = c.l1 := rfl
@[simp] theorem Core.raiseNow_pred (c : Core) (f : Flags) : (c.raiseNow f).pred = c.pred := rfl
@[simp] theorem Core.raiseNow_predBad (c : Core) (f : Flags) : (c.raiseNow f).predBad = c.predBad := rfl
@[simp] theorem Core.raiseNow_flaw (c : Core) (f : Flags) : (c.raiseNow f).flaw = c.flaw := rfl
@[simp] theorem Core.raiseNow_eng (c : Core) (f : Flags) : (c.raiseNow f).eng = c.eng := rfl
@[simp] theorem Core.raiseNow_seq (c : Core) (f : Flags) : (c.raiseNow f).seq = c.seq := rfl
@[simp] theorem Core.raiseNow_unit (c : Core) (f : Flags) : (c.raiseNow f).unit = c.unit := rfl
@[simp] theorem Core.raiseNow_acct (c : Core) (f : Flags) : (c.raiseNow f).acct = c.acct := rfl
@[simp] theorem Core.raiseNow_dbg (c : Core) (f : Flags) : (c.raiseNow f).dbg = c.dbg := rfl
@[simp] theorem Core.raiseNow_cyc (c : Core) (f : Flags) : (c.raiseNow f).cyc = c.cyc := rfl
@[simp] theorem Core.raiseNow_uid (c : Core) (f : Flags) : (c.raiseNow f).uid = c.uid := rfl
@[simp] theorem Core.raiseNow_view (c : Core) (f : Flags) : (c.raiseNow f).view = c.view := rfl
@[simp] theorem Core.raiseNow_l1Wait (c : Core) (f : Flags) : (c.raiseNow f).l1Wait = c.l1Wait := rfl
@[simp] theorem Core.raiseNow_arch_pc (c : Core) (f : Flags) : (c.raiseNow f).arch.pc = c.arch.pc := rfl
@[simp] theorem Core.raiseNow_arch_x (c : Core) (f : Flags) : (c.raiseNow f).arch.x = c.arch.x := rfl
@[simp] theorem Core.raiseNow_arch_a (c : Core) (f : Flags) : (c.raiseNow f).arch.a = c.arch.a := rfl
@[simp] theorem Core.raiseNow_arch_c (c : Core) (f : Flags) : (c.raiseNow f).arch.c = c.arch.c := rfl
@[simp] theorem Core.raiseNow_arch_p (c : Core) (f : Flags) : (c.raiseNow f).arch.p = c.arch.p := rfl
@[simp] theorem Core.raiseNow_arch_tiles (c : Core) (f : Flags) : (c.raiseNow f).arch.tiles = c.arch.tiles := rfl
@[simp] theorem Core.raiseNow_arch_toks (c : Core) (f : Flags) : (c.raiseNow f).arch.toks = c.arch.toks := rfl
@[simp] theorem Core.raiseNow_arch_sl (c : Core) (f : Flags) : (c.raiseNow f).arch.sl = c.arch.sl := rfl
@[simp] theorem Core.raiseNow_arch_loops (c : Core) (f : Flags) : (c.raiseNow f).arch.loops = c.arch.loops := rfl
@[simp] theorem Core.raiseNow_arch_priv (c : Core) (f : Flags) : (c.raiseNow f).arch.priv = c.arch.priv := rfl
@[simp] theorem Core.raiseNow_arch_opReq (c : Core) (f : Flags) : (c.raiseNow f).arch.opReq = c.arch.opReq := rfl
@[simp] theorem Core.raiseNow_arch_opNext (c : Core) (f : Flags) : (c.raiseNow f).arch.opNext = c.arch.opNext := rfl
@[simp] theorem Core.raiseNow_arch_ops (c : Core) (f : Flags) : (c.raiseNow f).arch.ops = c.arch.ops := rfl
@[simp] theorem Core.raiseNow_arch_bbars (c : Core) (f : Flags) : (c.raiseNow f).arch.bbars = c.arch.bbars := rfl
@[simp] theorem Core.raiseNow_arch_pend (c : Core) (f : Flags) : (c.raiseNow f).arch.pend = c.arch.pend := rfl

/-! ### `Core.putRow` -/

@[simp] theorem Core.putRow_latch (c : Core) (n slot b : Nat) (t : BitVec 4) (r : Nat) (m v : Row) (h : Bool) : (c.putRow n slot b t r m v h).latch = c.latch := rfl
@[simp] theorem Core.putRow_spad (c : Core) (n slot b : Nat) (t : BitVec 4) (r : Nat) (m v : Row) (h : Bool) : (c.putRow n slot b t r m v h).spad = c.spad := rfl
@[simp] theorem Core.putRow_l1kb (c : Core) (n slot b : Nat) (t : BitVec 4) (r : Nat) (m v : Row) (h : Bool) : (c.putRow n slot b t r m v h).l1kb = c.l1kb := rfl
@[simp] theorem Core.putRow_l1 (c : Core) (n slot b : Nat) (t : BitVec 4) (r : Nat) (m v : Row) (h : Bool) : (c.putRow n slot b t r m v h).l1 = c.l1 := rfl
@[simp] theorem Core.putRow_pred (c : Core) (n slot b : Nat) (t : BitVec 4) (r : Nat) (m v : Row) (h : Bool) : (c.putRow n slot b t r m v h).pred = c.pred := rfl
@[simp] theorem Core.putRow_predBad (c : Core) (n slot b : Nat) (t : BitVec 4) (r : Nat) (m v : Row) (h : Bool) : (c.putRow n slot b t r m v h).predBad = c.predBad := rfl
@[simp] theorem Core.putRow_flaw (c : Core) (n slot b : Nat) (t : BitVec 4) (r : Nat) (m v : Row) (h : Bool) : (c.putRow n slot b t r m v h).flaw = c.flaw := rfl
@[simp] theorem Core.putRow_eng (c : Core) (n slot b : Nat) (t : BitVec 4) (r : Nat) (m v : Row) (h : Bool) : (c.putRow n slot b t r m v h).eng = c.eng := rfl
@[simp] theorem Core.putRow_seq (c : Core) (n slot b : Nat) (t : BitVec 4) (r : Nat) (m v : Row) (h : Bool) : (c.putRow n slot b t r m v h).seq = c.seq := rfl
@[simp] theorem Core.putRow_unit (c : Core) (n slot b : Nat) (t : BitVec 4) (r : Nat) (m v : Row) (h : Bool) : (c.putRow n slot b t r m v h).unit = c.unit := rfl
@[simp] theorem Core.putRow_acct (c : Core) (n slot b : Nat) (t : BitVec 4) (r : Nat) (m v : Row) (h : Bool) : (c.putRow n slot b t r m v h).acct = c.acct := rfl
@[simp] theorem Core.putRow_dbg (c : Core) (n slot b : Nat) (t : BitVec 4) (r : Nat) (m v : Row) (h : Bool) : (c.putRow n slot b t r m v h).dbg = c.dbg := rfl
@[simp] theorem Core.putRow_cyc (c : Core) (n slot b : Nat) (t : BitVec 4) (r : Nat) (m v : Row) (h : Bool) : (c.putRow n slot b t r m v h).cyc = c.cyc := rfl
@[simp] theorem Core.putRow_view (c : Core) (n slot b : Nat) (t : BitVec 4) (r : Nat) (m v : Row) (h : Bool) : (c.putRow n slot b t r m v h).view = c.view := rfl
@[simp] theorem Core.putRow_l1Wait (c : Core) (n slot b : Nat) (t : BitVec 4) (r : Nat) (m v : Row) (h : Bool) : (c.putRow n slot b t r m v h).l1Wait = c.l1Wait := rfl
@[simp] theorem Core.putRow_arch_pc (c : Core) (n slot b : Nat) (t : BitVec 4) (r : Nat) (m v : Row) (h : Bool) : (c.putRow n slot b t r m v h).arch.pc = c.arch.pc := rfl
@[simp] theorem Core.putRow_arch_x (c : Core) (n slot b : Nat) (t : BitVec 4) (r : Nat) (m v : Row) (h : Bool) : (c.putRow n slot b t r m v h).arch.x = c.arch.x := rfl
@[simp] theorem Core.putRow_arch_a (c : Core) (n slot b : Nat) (t : BitVec 4) (r : Nat) (m v : Row) (h : Bool) : (c.putRow n slot b t r m v h).arch.a = c.arch.a := rfl
@[simp] theorem Core.putRow_arch_c (c : Core) (n slot b : Nat) (t : BitVec 4) (r : Nat) (m v : Row) (h : Bool) : (c.putRow n slot b t r m v h).arch.c = c.arch.c := rfl
@[simp] theorem Core.putRow_arch_p (c : Core) (n slot b : Nat) (t : BitVec 4) (r : Nat) (m v : Row) (h : Bool) : (c.putRow n slot b t r m v h).arch.p = c.arch.p := rfl
@[simp] theorem Core.putRow_arch_tiles (c : Core) (n slot b : Nat) (t : BitVec 4) (r : Nat) (m v : Row) (h : Bool) : (c.putRow n slot b t r m v h).arch.tiles = c.arch.tiles := rfl
@[simp] theorem Core.putRow_arch_toks (c : Core) (n slot b : Nat) (t : BitVec 4) (r : Nat) (m v : Row) (h : Bool) : (c.putRow n slot b t r m v h).arch.toks = c.arch.toks := rfl
@[simp] theorem Core.putRow_arch_sl (c : Core) (n slot b : Nat) (t : BitVec 4) (r : Nat) (m v : Row) (h : Bool) : (c.putRow n slot b t r m v h).arch.sl = c.arch.sl := rfl
@[simp] theorem Core.putRow_arch_loops (c : Core) (n slot b : Nat) (t : BitVec 4) (r : Nat) (m v : Row) (h : Bool) : (c.putRow n slot b t r m v h).arch.loops = c.arch.loops := rfl
@[simp] theorem Core.putRow_arch_ctl (c : Core) (n slot b : Nat) (t : BitVec 4) (r : Nat) (m v : Row) (h : Bool) : (c.putRow n slot b t r m v h).arch.ctl = c.arch.ctl := rfl
@[simp] theorem Core.putRow_arch_priv (c : Core) (n slot b : Nat) (t : BitVec 4) (r : Nat) (m v : Row) (h : Bool) : (c.putRow n slot b t r m v h).arch.priv = c.arch.priv := rfl
@[simp] theorem Core.putRow_arch_opReq (c : Core) (n slot b : Nat) (t : BitVec 4) (r : Nat) (m v : Row) (h : Bool) : (c.putRow n slot b t r m v h).arch.opReq = c.arch.opReq := rfl
@[simp] theorem Core.putRow_arch_opNext (c : Core) (n slot b : Nat) (t : BitVec 4) (r : Nat) (m v : Row) (h : Bool) : (c.putRow n slot b t r m v h).arch.opNext = c.arch.opNext := rfl
@[simp] theorem Core.putRow_arch_ops (c : Core) (n slot b : Nat) (t : BitVec 4) (r : Nat) (m v : Row) (h : Bool) : (c.putRow n slot b t r m v h).arch.ops = c.arch.ops := rfl
@[simp] theorem Core.putRow_arch_bbars (c : Core) (n slot b : Nat) (t : BitVec 4) (r : Nat) (m v : Row) (h : Bool) : (c.putRow n slot b t r m v h).arch.bbars = c.arch.bbars := rfl

/-! ### `Core.enterTrap` -/

@[simp] theorem Core.enterTrap_latch (c : Core) (tv : BitVec 64) (k : Nat) (d : BitVec 64) (ret : Word) : (c.enterTrap tv k d ret).latch = c.latch := rfl
@[simp] theorem Core.enterTrap_spad (c : Core) (tv : BitVec 64) (k : Nat) (d : BitVec 64) (ret : Word) : (c.enterTrap tv k d ret).spad = c.spad := rfl
@[simp] theorem Core.enterTrap_l1kb (c : Core) (tv : BitVec 64) (k : Nat) (d : BitVec 64) (ret : Word) : (c.enterTrap tv k d ret).l1kb = c.l1kb := rfl
@[simp] theorem Core.enterTrap_l1 (c : Core) (tv : BitVec 64) (k : Nat) (d : BitVec 64) (ret : Word) : (c.enterTrap tv k d ret).l1 = c.l1 := rfl
@[simp] theorem Core.enterTrap_pred (c : Core) (tv : BitVec 64) (k : Nat) (d : BitVec 64) (ret : Word) : (c.enterTrap tv k d ret).pred = c.pred := rfl
@[simp] theorem Core.enterTrap_predBad (c : Core) (tv : BitVec 64) (k : Nat) (d : BitVec 64) (ret : Word) : (c.enterTrap tv k d ret).predBad = c.predBad := rfl
@[simp] theorem Core.enterTrap_flaw (c : Core) (tv : BitVec 64) (k : Nat) (d : BitVec 64) (ret : Word) : (c.enterTrap tv k d ret).flaw = c.flaw := rfl
@[simp] theorem Core.enterTrap_acct (c : Core) (tv : BitVec 64) (k : Nat) (d : BitVec 64) (ret : Word) : (c.enterTrap tv k d ret).acct = c.acct := rfl
@[simp] theorem Core.enterTrap_dbg (c : Core) (tv : BitVec 64) (k : Nat) (d : BitVec 64) (ret : Word) : (c.enterTrap tv k d ret).dbg = c.dbg := rfl
@[simp] theorem Core.enterTrap_cyc (c : Core) (tv : BitVec 64) (k : Nat) (d : BitVec 64) (ret : Word) : (c.enterTrap tv k d ret).cyc = c.cyc := rfl
@[simp] theorem Core.enterTrap_uid (c : Core) (tv : BitVec 64) (k : Nat) (d : BitVec 64) (ret : Word) : (c.enterTrap tv k d ret).uid = c.uid := rfl
@[simp] theorem Core.enterTrap_view (c : Core) (tv : BitVec 64) (k : Nat) (d : BitVec 64) (ret : Word) : (c.enterTrap tv k d ret).view = c.view := rfl
@[simp] theorem Core.enterTrap_l1Wait (c : Core) (tv : BitVec 64) (k : Nat) (d : BitVec 64) (ret : Word) : (c.enterTrap tv k d ret).l1Wait = c.l1Wait := rfl
@[simp] theorem Core.enterTrap_arch_x (c : Core) (tv : BitVec 64) (k : Nat) (d : BitVec 64) (ret : Word) : (c.enterTrap tv k d ret).arch.x = c.arch.x := rfl
@[simp] theorem Core.enterTrap_arch_a (c : Core) (tv : BitVec 64) (k : Nat) (d : BitVec 64) (ret : Word) : (c.enterTrap tv k d ret).arch.a = c.arch.a := rfl
@[simp] theorem Core.enterTrap_arch_c (c : Core) (tv : BitVec 64) (k : Nat) (d : BitVec 64) (ret : Word) : (c.enterTrap tv k d ret).arch.c = c.arch.c := rfl
@[simp] theorem Core.enterTrap_arch_p (c : Core) (tv : BitVec 64) (k : Nat) (d : BitVec 64) (ret : Word) : (c.enterTrap tv k d ret).arch.p = c.arch.p := rfl
@[simp] theorem Core.enterTrap_arch_tiles (c : Core) (tv : BitVec 64) (k : Nat) (d : BitVec 64) (ret : Word) : (c.enterTrap tv k d ret).arch.tiles = c.arch.tiles := rfl
@[simp] theorem Core.enterTrap_arch_toks (c : Core) (tv : BitVec 64) (k : Nat) (d : BitVec 64) (ret : Word) : (c.enterTrap tv k d ret).arch.toks = c.arch.toks := rfl
@[simp] theorem Core.enterTrap_arch_sl (c : Core) (tv : BitVec 64) (k : Nat) (d : BitVec 64) (ret : Word) : (c.enterTrap tv k d ret).arch.sl = c.arch.sl := rfl
@[simp] theorem Core.enterTrap_arch_opReq (c : Core) (tv : BitVec 64) (k : Nat) (d : BitVec 64) (ret : Word) : (c.enterTrap tv k d ret).arch.opReq = c.arch.opReq := rfl
@[simp] theorem Core.enterTrap_arch_opNext (c : Core) (tv : BitVec 64) (k : Nat) (d : BitVec 64) (ret : Word) : (c.enterTrap tv k d ret).arch.opNext = c.arch.opNext := rfl
@[simp] theorem Core.enterTrap_arch_ops (c : Core) (tv : BitVec 64) (k : Nat) (d : BitVec 64) (ret : Word) : (c.enterTrap tv k d ret).arch.ops = c.arch.ops := rfl
@[simp] theorem Core.enterTrap_arch_bbars (c : Core) (tv : BitVec 64) (k : Nat) (d : BitVec 64) (ret : Word) : (c.enterTrap tv k d ret).arch.bbars = c.arch.bbars := rfl
@[simp] theorem Core.enterTrap_arch_pend (c : Core) (tv : BitVec 64) (k : Nat) (d : BitVec 64) (ret : Word) : (c.enterTrap tv k d ret).arch.pend = c.arch.pend := rfl

/-! ### `Core.leaveTrap` -/

@[simp] theorem Core.leaveTrap_latch (c : Core) : (c.leaveTrap).latch = c.latch := rfl
@[simp] theorem Core.leaveTrap_spad (c : Core) : (c.leaveTrap).spad = c.spad := rfl
@[simp] theorem Core.leaveTrap_l1kb (c : Core) : (c.leaveTrap).l1kb = c.l1kb := rfl
@[simp] theorem Core.leaveTrap_l1 (c : Core) : (c.leaveTrap).l1 = c.l1 := rfl
@[simp] theorem Core.leaveTrap_pred (c : Core) : (c.leaveTrap).pred = c.pred := rfl
@[simp] theorem Core.leaveTrap_predBad (c : Core) : (c.leaveTrap).predBad = c.predBad := rfl
@[simp] theorem Core.leaveTrap_flaw (c : Core) : (c.leaveTrap).flaw = c.flaw := rfl
@[simp] theorem Core.leaveTrap_unit (c : Core) : (c.leaveTrap).unit = c.unit := rfl
@[simp] theorem Core.leaveTrap_acct (c : Core) : (c.leaveTrap).acct = c.acct := rfl
@[simp] theorem Core.leaveTrap_dbg (c : Core) : (c.leaveTrap).dbg = c.dbg := rfl
@[simp] theorem Core.leaveTrap_cyc (c : Core) : (c.leaveTrap).cyc = c.cyc := rfl
@[simp] theorem Core.leaveTrap_uid (c : Core) : (c.leaveTrap).uid = c.uid := rfl
@[simp] theorem Core.leaveTrap_view (c : Core) : (c.leaveTrap).view = c.view := rfl
@[simp] theorem Core.leaveTrap_l1Wait (c : Core) : (c.leaveTrap).l1Wait = c.l1Wait := rfl
@[simp] theorem Core.leaveTrap_arch_x (c : Core) : (c.leaveTrap).arch.x = c.arch.x := rfl
@[simp] theorem Core.leaveTrap_arch_a (c : Core) : (c.leaveTrap).arch.a = c.arch.a := rfl
@[simp] theorem Core.leaveTrap_arch_c (c : Core) : (c.leaveTrap).arch.c = c.arch.c := rfl
@[simp] theorem Core.leaveTrap_arch_p (c : Core) : (c.leaveTrap).arch.p = c.arch.p := rfl
@[simp] theorem Core.leaveTrap_arch_tiles (c : Core) : (c.leaveTrap).arch.tiles = c.arch.tiles := rfl
@[simp] theorem Core.leaveTrap_arch_toks (c : Core) : (c.leaveTrap).arch.toks = c.arch.toks := rfl
@[simp] theorem Core.leaveTrap_arch_sl (c : Core) : (c.leaveTrap).arch.sl = c.arch.sl := rfl
@[simp] theorem Core.leaveTrap_arch_ctl (c : Core) : (c.leaveTrap).arch.ctl = c.arch.ctl := rfl
@[simp] theorem Core.leaveTrap_arch_opReq (c : Core) : (c.leaveTrap).arch.opReq = c.arch.opReq := rfl
@[simp] theorem Core.leaveTrap_arch_opNext (c : Core) : (c.leaveTrap).arch.opNext = c.arch.opNext := rfl
@[simp] theorem Core.leaveTrap_arch_ops (c : Core) : (c.leaveTrap).arch.ops = c.arch.ops := rfl
@[simp] theorem Core.leaveTrap_arch_bbars (c : Core) : (c.leaveTrap).arch.bbars = c.arch.bbars := rfl
@[simp] theorem Core.leaveTrap_arch_pend (c : Core) : (c.leaveTrap).arch.pend = c.arch.pend := rfl

/-! ### `Core.land` -/

@[simp] theorem Core.land_latch (c : Core) : (c.land).latch = c.latch := rfl
@[simp] theorem Core.land_spad (c : Core) : (c.land).spad = c.spad := rfl
@[simp] theorem Core.land_l1kb (c : Core) : (c.land).l1kb = c.l1kb := rfl
@[simp] theorem Core.land_l1 (c : Core) : (c.land).l1 = c.l1 := rfl
@[simp] theorem Core.land_pred (c : Core) : (c.land).pred = c.pred := rfl
@[simp] theorem Core.land_predBad (c : Core) : (c.land).predBad = c.predBad := rfl
@[simp] theorem Core.land_flaw (c : Core) : (c.land).flaw = c.flaw := rfl
@[simp] theorem Core.land_seq (c : Core) : (c.land).seq = c.seq := rfl
@[simp] theorem Core.land_unit (c : Core) : (c.land).unit = c.unit := rfl
@[simp] theorem Core.land_acct (c : Core) : (c.land).acct = c.acct := rfl
@[simp] theorem Core.land_dbg (c : Core) : (c.land).dbg = c.dbg := rfl
@[simp] theorem Core.land_cyc (c : Core) : (c.land).cyc = c.cyc := rfl
@[simp] theorem Core.land_uid (c : Core) : (c.land).uid = c.uid := rfl
@[simp] theorem Core.land_view (c : Core) : (c.land).view = c.view := rfl
@[simp] theorem Core.land_l1Wait (c : Core) : (c.land).l1Wait = c.l1Wait := rfl

/-! ### `Core.landAll` -/

@[simp] theorem Core.landAll_latch (c : Core) : (c.landAll).latch = c.latch := rfl
@[simp] theorem Core.landAll_spad (c : Core) : (c.landAll).spad = c.spad := rfl
@[simp] theorem Core.landAll_l1kb (c : Core) : (c.landAll).l1kb = c.l1kb := rfl
@[simp] theorem Core.landAll_l1 (c : Core) : (c.landAll).l1 = c.l1 := rfl
@[simp] theorem Core.landAll_pred (c : Core) : (c.landAll).pred = c.pred := rfl
@[simp] theorem Core.landAll_predBad (c : Core) : (c.landAll).predBad = c.predBad := rfl
@[simp] theorem Core.landAll_flaw (c : Core) : (c.landAll).flaw = c.flaw := rfl
@[simp] theorem Core.landAll_seq (c : Core) : (c.landAll).seq = c.seq := rfl
@[simp] theorem Core.landAll_unit (c : Core) : (c.landAll).unit = c.unit := rfl
@[simp] theorem Core.landAll_acct (c : Core) : (c.landAll).acct = c.acct := rfl
@[simp] theorem Core.landAll_dbg (c : Core) : (c.landAll).dbg = c.dbg := rfl
@[simp] theorem Core.landAll_cyc (c : Core) : (c.landAll).cyc = c.cyc := rfl
@[simp] theorem Core.landAll_uid (c : Core) : (c.landAll).uid = c.uid := rfl
@[simp] theorem Core.landAll_view (c : Core) : (c.landAll).view = c.view := rfl
@[simp] theorem Core.landAll_l1Wait (c : Core) : (c.landAll).l1Wait = c.l1Wait := rfl

end Sys2Proof.Machine
end

