-- ==== Sys2Proof/Laws/Parts.lean ====
section
/-!
SUPPORT. What each part of the machine is after one part has been changed: the part itself, and every other part as it was.
-/
namespace Sys2Proof.Machine

/-- An element of a vector after one has been set. -/
theorem getD_setIfInBounds {α : Type} {n : Nat} (v : Vector α n) (i j : Nat) (a d : α) :
    (v.setIfInBounds i a).getD j d = if j = i ∧ i < n then a else v.getD j d := by
  by_cases hj : j < n
  · by_cases hi : j = i
    · subst hi; simp [Vector.getD, hj]
    · simp [Vector.getD, hj, hi, Ne.symm hi]
  · have hji : ¬(j = i ∧ i < n) := by omega
    simp [Vector.getD, hj, hji]

theorem State.core_modCore (s : State) (i j : Nat) (f : Core → Core) :
    (s.modCore i f).core j = if j = i ∧ i < 256 then f (s.core i) else s.core j :=
  getD_setIfInBounds s.cores i j _ _

@[simp] theorem State.core_modCore_same (s : State) {i : Nat} (f : Core → Core) (h : i < 256) :
    (s.modCore i f).core i = f (s.core i) := by simp [State.core_modCore, h]

theorem State.core_modCore_other (s : State) {i j : Nat} (f : Core → Core) (h : j ≠ i) :
    (s.modCore i f).core j = s.core j := by simp [State.core_modCore, h]

theorem State.rod_modRod (s : State) (i j : Nat) (f : Rod → Rod) :
    (s.modRod i f).rod j = if j = i ∧ i < 64 then f (s.rod i) else s.rod j :=
  getD_setIfInBounds s.rods i j _ _

@[simp] theorem State.rod_modRod_same (s : State) {i : Nat} (f : Rod → Rod) (h : i < 64) :
    (s.modRod i f).rod i = f (s.rod i) := by simp [State.rod_modRod, h]

theorem State.rod_modRod_other (s : State) {i j : Nat} (f : Rod → Rod) (h : j ≠ i) :
    (s.modRod i f).rod j = s.rod j := by simp [State.rod_modRod, h]

theorem State.panel_modPanel (s : State) (i j : Nat) (f : Panel → Panel) :
    (s.modPanel i f).panel j = if j = i ∧ i < 16 then f (s.panel i) else s.panel j :=
  getD_setIfInBounds s.panels i j _ _

@[simp] theorem State.panel_modPanel_same (s : State) {i : Nat} (f : Panel → Panel) (h : i < 16) :
    (s.modPanel i f).panel i = f (s.panel i) := by simp [State.panel_modPanel, h]

theorem State.panel_modPanel_other (s : State) {i j : Nat} (f : Panel → Panel) (h : j ≠ i) :
    (s.modPanel i f).panel j = s.panel j := by simp [State.panel_modPanel, h]

theorem State.die_modDie (s : State) (i j : Nat) (f : Die → Die) :
    (s.modDie i f).die j = if j = i ∧ i < 2 then f (s.die i) else s.die j :=
  getD_setIfInBounds s.dies i j _ _

@[simp] theorem State.die_modDie_same (s : State) {i : Nat} (f : Die → Die) (h : i < 2) :
    (s.modDie i f).die i = f (s.die i) := by simp [State.die_modDie, h]

theorem State.die_modDie_other (s : State) {i j : Nat} (f : Die → Die) (h : j ≠ i) :
    (s.modDie i f).die j = s.die j := by simp [State.die_modDie, h]

theorem State.ctx_modCtx (s : State) (i j : Nat) (f : Ctx → Ctx) :
    (s.modCtx i f).ctx j = if j = i ∧ i < 512 then f (s.ctx i) else s.ctx j :=
  getD_setIfInBounds s.work.ctxs i j _ _

theorem State.status_modStatus (s : State) (i j : Nat) (f : CtxStatus → CtxStatus) :
    (s.modStatus i f).status j = if j = i ∧ i < 512 then f (s.status i) else s.status j :=
  getD_setIfInBounds s.work.status i j _ _

theorem State.chan_modChan (s : State) (i j : Nat) (f : Chan → Chan) :
    (s.modChan i f).chan j = if j = i ∧ i < 256 then f (s.chan i) else s.chan j :=
  getD_setIfInBounds s.fabric.chans i j _ _

theorem State.lq_modLq (s : State) (i j : Nat) (f : LaunchQ → LaunchQ) :
    (s.modLq i f).lq j = if j = i ∧ i < 64 then f (s.lq i) else s.lq j :=
  getD_setIfInBounds s.host.lqs i j _ _

/-- The acting core after it has been changed. -/
@[simp] theorem State.me_onMe (s : State) (f : Core → Core) (h : s.act < 256) : (s.onMe f).me = f s.me := by
  simp [State.me, State.onMe, h]

/-- A change of one core is a change of no other. -/
theorem OnlyCore.modCore (s : State) (n : Nat) (f : Core → Core) : OnlyCore n s (s.modCore n f) where
  package := rfl
  others _ h := s.core_modCore_other f h

/-- A change of one rod is a change of no other. -/
theorem OnlyRod.modRod (s : State) (n : Nat) (f : Rod → Rod) : OnlyRod n s (s.modRod n f) where
  package := rfl
  others _ h := s.rod_modRod_other f h

/-- A change of one panel is a change of no other. -/
theorem OnlyPanel.modPanel (s : State) (n : Nat) (f : Panel → Panel) : OnlyPanel n s (s.modPanel n f) where
  package := rfl
  others _ h := s.panel_modPanel_other f h

/-- A change of one die is a change of no other. -/
theorem OnlyDie.modDie (s : State) (n : Nat) (f : Die → Die) : OnlyDie n s (s.modDie n f) where
  package := rfl
  others _ h := s.die_modDie_other f h

/-- A change of one channel end is a change of no other. -/
theorem OnlyChan.modChan (s : State) (n : Nat) (f : Chan → Chan) : OnlyChan n s (s.modChan n f) where
  package := rfl
  others j h := by simp [State.chan_modChan, h]

/-- A core may change many times over. -/
theorem OnlyCore.trans {n : Nat} {s t u : State} (h : OnlyCore n s t) (k : OnlyCore n t u) : OnlyCore n s u where
  package := by rw [k.package, h.package]
  others m hm := (k.others m hm).trans (h.others m hm)

/-! ### The canonical form of every memory -/

/-- A change of a core that keeps the form of its scratchpad keeps every memory's. -/
theorem State.MemOk.modCore {s : State} (h : s.MemOk) (n : Nat) (f : Core → Core)
    (hf : (s.core n).spad.wf = true → (f (s.core n)).spad.wf = true) : (s.modCore n f).MemOk where
  dram := h.dram
  spads m hm := by
    rw [State.core_modCore]
    split
    · next e => exact hf (h.spads n e.2)
    · exact h.spads m hm
  saved := h.saved
  staging := h.staging
  banks := h.banks

/-- A change of a rod that keeps the form of its staging buffer keeps every memory's. -/
theorem State.MemOk.modRod {s : State} (h : s.MemOk) (n : Nat) (f : Rod → Rod)
    (hf : (s.rod n).slice.staging.wf = true → (f (s.rod n)).slice.staging.wf = true) : (s.modRod n f).MemOk where
  dram := h.dram
  spads := h.spads
  saved := h.saved
  staging m hm := by
    rw [State.rod_modRod]
    split
    · next e => exact hf (h.staging n e.2)
    · exact h.staging m hm
  banks := h.banks

/-- Bytes written to DRAM keep every memory's form. -/
theorem State.MemOk.writeDram {s : State} (h : s.MemOk) (o : Nat) (bs : List Byte) :
    ({ s with dram := s.dram.writes o bs } : State).MemOk where
  dram := by
    have := h.dram
    exact Mem.writes_wf o bs this
  spads := h.spads
  saved := h.saved
  staging := h.staging
  banks := h.banks

end Sys2Proof.Machine
end

