-- ==== Sys2Proof/Laws/Results.lean ====
section
/-!
SUPPORT. Results in flight (R124 to R129): what the registers are once a result has landed, and the two shapes of a scalar result.
-/
namespace Sys2Proof.Machine

/-- Sets of two places of a vector commute. -/
theorem vector_set_comm {α : Type} {n i j : Nat} {u : Vector α n} (a b : α) (h : i ≠ j) :
    (u.setIfInBounds i a).setIfInBounds j b = (u.setIfInBounds j b).setIfInBounds i a := by
  ext k hk
  simp only [Vector.getElem_setIfInBounds]
  by_cases h1 : i = k <;> by_cases h2 : j = k <;> simp_all

/-- Results landed from a state of the registers do not depend on which others are in flight. -/
theorem apply_fold_pend (l : List Pend) (a : Arch) (p : List Pend) :
    l.foldl (fun (b : Arch) e => b.apply e.val) { a with pend := p } =
      { l.foldl (fun (b : Arch) e => b.apply e.val) a with pend := p } := by
  induction l generalizing a with
  | nil => rfl
  | cons e l ih =>
    simp only [List.foldl_cons]
    rw [← ih]
    congr 1
    cases e.val <;> rfl

/-- A register written first, or after results none of which writes it. -/
theorem apply_fold_x (l : List Pend) (a : Arch) (r : BitVec 5) (v : Word)
    (h : ∀ e ∈ l, ∀ w, e.val ≠ .x r w) :
    l.foldl (fun (b : Arch) e => b.apply e.val) { a with x := a.x.setIfInBounds r.toNat v } =
      { l.foldl (fun (b : Arch) e => b.apply e.val) a with
        x := (l.foldl (fun (b : Arch) e => b.apply e.val) a).x.setIfInBounds r.toNat v } := by
  induction l generalizing a with
  | nil => rfl
  | cons e l ih =>
    simp only [List.foldl_cons]
    rw [← ih _ fun f hf => h f (by simp [hf])]
    congr 1
    have he := h e (by simp)
    cases hv : e.val with
    | x q w =>
      have hne : q.toNat ≠ r.toNat := fun k => he w (by rw [hv, BitVec.eq_of_toNat_eq k])
      simp only [Arch.apply]
      congr 1
      exact vector_set_comm _ _ hne.symm
    | row t q m w => rfl
    | tile t w k => rfl
    | sl m w => rfl
    | flags f k => rfl

/-- The registers once a result added in flight has landed. -/
theorem Core.settled_post (c : Core) (b : Nat) (v : PendVal) : (c.post b v).settled = c.settled.apply v := by
  have h := apply_fold_pend c.arch.pend c.arch (c.arch.pend ++ [⟨c.uid, c.cyc + b, v, false⟩])
  simp only [Core.settled, Core.landAll, Core.post, List.foldl_append, List.foldl_cons, List.foldl_nil, h]
  cases v <;> rfl

/-- The registers once a scalar result with a bound of 1 has landed. -/
theorem Core.settled_putX (c : Core) (r : BitVec 5) (v : Word) (h : r ≠ 0) :
    (c.putX r v).settled = { c.settled with x := c.settled.x.setIfInBounds r.toNat v } := by
  simp only [Core.putX, if_neg h]
  split
  · rw [Core.settled_post]
    rfl
  · next hf =>
    have hp : ∀ e ∈ c.arch.pend, ∀ w, e.val ≠ .x r w := by
      intro e he w hw
      refine hf (List.any_eq_true.2 ⟨e, he, ?_⟩)
      simp [hw]
    have := apply_fold_x c.arch.pend c.arch r v hp
    simp only [Core.settled, Core.landAll, Core.modArch, this]
    rfl

/-- The registers once a scalar result with a longer bound has landed. -/
theorem Core.settled_putXLate (c : Core) (b : Nat) (r : BitVec 5) (v : Word) (h : r ≠ 0) :
    (c.putXLate b r v).settled = { c.settled with x := c.settled.x.setIfInBounds r.toNat v } := by
  simp only [Core.putXLate, if_neg h, Core.settled_post]
  rfl

/-- A settled register after a settled write. -/
theorem Core.settledX_set {c d : Core} {r : BitVec 5} {v : Word} (h : r ≠ 0)
    (e : d.settled = { c.settled with x := c.settled.x.setIfInBounds r.toNat v }) (q : BitVec 5) :
    d.settledX q = if q = r then v else c.settledX q := by
  simp only [Core.settledX, e]
  by_cases hq : q = r
  · subst hq
    rw [if_neg h, if_pos rfl, getD_setIfInBounds, if_pos ⟨rfl, by omega⟩]
  · have : q.toNat ≠ r.toNat := fun k => hq (BitVec.eq_of_toNat_eq k)
    simp [hq, getD_setIfInBounds, this]

/-- What a change of the acting core to `d` that leaves a scalar result does. -/
theorem XResult.of {s : State} {d : Core} {b : Nat} {r : BitVec 5} {v : Word} (hs : s.act < 256) (hr : r ≠ 0)
    (hd : d = { s.me with arch := d.arch, uid := d.uid })
    (e : d.settled = { s.me.settled with x := s.me.settled.x.setIfInBounds r.toNat v })
    (due : ∀ p ∈ d.arch.pend, p ∈ s.me.arch.pend ∨ p.due = s.me.cyc + b) :
    XResult s (s.onMe fun _ => d) b r v where
  only := OnlyCore.modCore s s.act _
  core := by rw [State.me_onMe s _ hs]; exact hd
  arch := by rw [State.me_onMe s _ hs, e]
  value := by rw [State.me_onMe s _ hs, Core.settledX_set hr e, if_pos rfl, if_neg hr]
  frame q hq := by rw [State.me_onMe s _ hs, Core.settledX_set hr e]; simp [hq]
  due p hp := by rw [State.me_onMe s _ hs] at hp; exact due p hp

/-- A result for x0 is none. -/
theorem XResult.zero {s : State} (b : Nat) (v : Word) (hs : s.act < 256) : XResult s (s.onMe fun c => c) b 0 v where
  only := OnlyCore.modCore s s.act _
  core := by rw [State.me_onMe s _ hs]
  arch := by rw [State.me_onMe s _ hs]
  value := by rw [State.me_onMe s _ hs]; rfl
  frame q _ := by rw [State.me_onMe s _ hs]
  due p hp := by rw [State.me_onMe s _ hs] at hp; exact .inl hp

/-- A scalar write with a bound of 1 is a scalar result (R124). -/
theorem XResult.putX {s : State} (r : BitVec 5) (v : Word) (hs : s.act < 256) :
    XResult s (s.onMe fun c => c.putX r v) 1 r v := by
  by_cases hr : r = 0
  · subst hr
    exact XResult.zero 1 v hs
  · refine XResult.of hs hr ?_ (Core.settled_putX s.me r v hr) ?_
    · simp only [Core.putX, if_neg hr]
      split <;> rfl
    · intro p hp
      simp only [Core.putX, if_neg hr] at hp
      split at hp
      · rcases List.mem_append.1 hp with h | h
        · exact .inl h
        · exact .inr (by rw [List.mem_singleton.1 h]; rfl)
      · exact .inl hp

/-- A scalar write with a longer bound is a scalar result (R124). -/
theorem XResult.putXLate {s : State} (b : Nat) (r : BitVec 5) (v : Word) (hs : s.act < 256) :
    XResult s (s.onMe fun c => c.putXLate b r v) b r v := by
  by_cases hr : r = 0
  · subst hr
    exact XResult.zero b v hs
  · refine XResult.of hs hr ?_ (Core.settled_putXLate s.me b r v hr) ?_
    · simp only [Core.putXLate, if_neg hr]
      rfl
    · intro p hp
      simp only [Core.putXLate, if_neg hr] at hp
      rcases List.mem_append.1 hp with h | h
      · exact .inl h
      · exact .inr (by rw [List.mem_singleton.1 h]; rfl)

/-- `xForm` answers a next state with the result. -/
theorem xForm_spec (s : State) (r : BitVec 5) (v : Word) (hs : s.act < 256) :
    ∃ t, xForm r v s = .next t ∧ XResult s t 1 r v :=
  ⟨_, rfl, XResult.putX r v hs⟩

/-- `rrForm` answers a next state: the result where its guard is true, and the state itself where it is false (R140). -/
theorem rrForm_spec (s : State) (b : Nat) (f : Word → Word → Word) (pg : BitVec 3) (xd xa xb : BitVec 5) (hs : s.act < 256) :
    if s.me.rdP pg then ∃ t, rrForm b f pg xd xa xb s = .next t ∧ XResult s t b xd (f (s.rx xa) (s.rx xb))
    else rrForm b f pg xd xa xb s = .next s := by
  unfold rrForm
  split
  · next hp =>
    rw [if_pos hp]
    refine ⟨_, rfl, ?_⟩
    by_cases hb : b = 1
    · subst hb
      simpa using XResult.putX xd (f (s.rx xa) (s.rx xb)) hs
    · simpa [hb] using XResult.putXLate b xd (f (s.rx xa) (s.rx xb)) hs
  · next hp => rw [if_neg hp]

end Sys2Proof.Machine
end

