-- ==== Sys2Proof/Laws/Traps.lean ====
section
/-!
SUPPORT. Taking an exception (R371 to R374): what the one operation for it does in each of its cases.
-/
namespace Sys2Proof.Machine

/-- In unprivileged mode every class but FATAL_ACCESS enters its handler. -/
theorem takeTrap_enters (s : State) (n cls : Nat) (d : BitVec 64) (ret : Word)
    (hp : (s.core n).arch.priv = false) (hc : cls ≠ 0) :
    s.takeTrap n cls d ret = s.modCore n fun c => c.enterTrap c.tvec cls d ret := by
  have : ¬((s.core n).arch.priv = true) := by simp [hp]
  simp only [State.takeTrap, if_neg this, if_neg hc]

/-- In privileged mode an exception ends the context that holds the core, with bit 63 of the detail set. -/
theorem takeTrap_privileged (s : State) (n cls : Nat) (d : BitVec 64) (ret : Word) (hp : (s.core n).arch.priv = true) :
    s.takeTrap n cls d ret = match s.asidOf n with
      | some a => s.endContext a 1 cls 0 n (d ||| 0x8000000000000000#64)
      | none => s := by
  unfold State.takeTrap
  exact if_pos hp

/-- A FATAL_ACCESS in unprivileged mode ends the context that holds the core. -/
theorem takeTrap_fatal (s : State) (n : Nat) (d : BitVec 64) (ret : Word) (hp : (s.core n).arch.priv = false) :
    s.takeTrap n 0 d ret = match s.asidOf n with
      | some a => s.endContext a 1 0 0 n d
      | none => s := by
  have : ¬((s.core n).arch.priv = true) := by simp [hp]
  unfold State.takeTrap
  exact (if_neg this).trans (if_pos rfl)

/-- The end of a context touches no context that has ended or is ending. -/
theorem endContext_twice (s : State) (a kind cls st core : Nat) (d : BitVec 64)
    (h : (s.ctx a).ending = true ∨ (s.ctx a).live = false) : s.endContext a kind cls st core d = s := by
  have : ((s.ctx a).ending || !(s.ctx a).live) = true := by rcases h with h | h <;> simp [h]
  simp only [State.endContext, if_pos this]

end Sys2Proof.Machine
end

