-- ==== Sys2Proof/Tests/Slice0.lean ====
section
/-!
SUPPORT. The model's own tests: words written out bit by bit from the encodings of the spec, ill-formed terms and words that are refused,
single steps with results that the chapters give, and for each statement with hypotheses a state and operands that meet them.
-/
namespace Sys2Proof.Tests
set_option Elab.async false
open Sys2Proof Sys2Proof.Machine

/-! ### Ill-formed terms are refused (R12, R138, R167, R295) -/

theorem test_ill_formed :
    (Instr.cpy 0 0 0 0).defect = some .koutZero ∧ (Instr.tkset 0 0).defect = some .koutZero ∧
    (Instr.tcfg 0 .int8 0 0 1).defect = some .tentType ∧ (Instr.windowEnd 64).defect = some .noSuchUnit ∧
    (Instr.wayQuarantine 0 16).defect = some .noSuchUnit ∧ (Instr.trapEntry 256).defect = some .noSuchUnit := by decide +kernel

theorem test_no_word : encodeSlot true 0 (.windowEnd 3) = none ∧ encode .packageReset = [] := by decide +kernel

/-- A word for each reason that is not of its form: MAJ 0x1F, a function code 0x3F of MAJ 0x00, a vector type 15, a bit that the layout of
POPC marks zero, a copy whose kout is k0, and a tentative INT8 tile. -/
theorem test_words_refused :
    decodeInstr 0x9F000000#32 = .error .reservedMajor ∧ decodeInstr 0x8000003F#32 = .error .reservedFunction ∧
    decodeInstr 0xAC0F0000#32 = .error .reservedField ∧ decodeInstr 0x8000005A#32 = .error .nonzeroField ∧
    decodeInstr 0x97000000#32 = .error .koutZero ∧ decodeInstr 0x8C000100#32 = .error .tentType := by
  refine ⟨rfl, rfl, rfl, rfl, rfl, rfl⟩

/-! ### Decoding -/

/-- MAJ 0x00: each word written out from the fields of its layout, stop bit 1 and weight 0. -/
theorem test_decode_rr :
  decodeInstr (0b1#1 ++ 0b00#2 ++ 0b00000#5 ++ 0b101#3 ++ 0b10000#5 ++ 0b11011#5 ++ 0b00110#5 ++ 0b000000#6) = .ok (.add 5 16 27 6) ∧
  decodeInstr (0b1#1 ++ 0b00#2 ++ 0b00000#5 ++ 0b100#3 ++ 0b10111#5 ++ 0b00010#5 ++ 0b01101#5 ++ 0b000001#6) = .ok (.sub 4 23 2 13) ∧
  decodeInstr (0b1#1 ++ 0b00#2 ++ 0b00000#5 ++ 0b011#3 ++ 0b11110#5 ++ 0b01001#5 ++ 0b10100#5 ++ 0b000010#6) = .ok (.and 3 30 9 20) ∧
  decodeInstr (0b1#1 ++ 0b00#2 ++ 0b00000#5 ++ 0b010#3 ++ 0b00101#5 ++ 0b10000#5 ++ 0b11011#5 ++ 0b000011#6) = .ok (.or 2 5 16 27) ∧
  decodeInstr (0b1#1 ++ 0b00#2 ++ 0b00000#5 ++ 0b001#3 ++ 0b01100#5 ++ 0b10111#5 ++ 0b00010#5 ++ 0b000100#6) = .ok (.xor 1 12 23 2) ∧
  decodeInstr (0b1#1 ++ 0b00#2 ++ 0b00000#5 ++ 0b111#3 ++ 0b10011#5 ++ 0b11110#5 ++ 0b01001#5 ++ 0b000101#6) = .ok (.andn 7 19 30 9) ∧
  decodeInstr (0b1#1 ++ 0b00#2 ++ 0b00000#5 ++ 0b111#3 ++ 0b11010#5 ++ 0b00101#5 ++ 0b10000#5 ++ 0b000110#6) = .ok (.sll 7 26 5 16) ∧
  decodeInstr (0b1#1 ++ 0b00#2 ++ 0b00000#5 ++ 0b110#3 ++ 0b00001#5 ++ 0b01100#5 ++ 0b10111#5 ++ 0b000111#6) = .ok (.srl 6 1 12 23) ∧
  decodeInstr (0b1#1 ++ 0b00#2 ++ 0b00000#5 ++ 0b101#3 ++ 0b01000#5 ++ 0b10011#5 ++ 0b11110#5 ++ 0b001000#6) = .ok (.sra 5 8 19 30) ∧
  decodeInstr (0b1#1 ++ 0b00#2 ++ 0b00000#5 ++ 0b100#3 ++ 0b01111#5 ++ 0b11010#5 ++ 0b00101#5 ++ 0b001001#6) = .ok (.ror 4 15 26 5) ∧
  decodeInstr (0b1#1 ++ 0b00#2 ++ 0b00000#5 ++ 0b011#3 ++ 0b10110#5 ++ 0b00001#5 ++ 0b01100#5 ++ 0b001010#6) = .ok (.mul 3 22 1 12) ∧
  decodeInstr (0b1#1 ++ 0b00#2 ++ 0b00000#5 ++ 0b010#3 ++ 0b11101#5 ++ 0b01000#5 ++ 0b10011#5 ++ 0b001011#6) = .ok (.mulh 2 29 8 19) ∧
  decodeInstr (0b1#1 ++ 0b00#2 ++ 0b00000#5 ++ 0b001#3 ++ 0b00100#5 ++ 0b01111#5 ++ 0b11010#5 ++ 0b001100#6) = .ok (.mulhu 1 4 15 26) ∧
  decodeInstr (0b1#1 ++ 0b00#2 ++ 0b00000#5 ++ 0b111#3 ++ 0b01011#5 ++ 0b10110#5 ++ 0b00001#5 ++ 0b001101#6) = .ok (.div 7 11 22 1) ∧
  decodeInstr (0b1#1 ++ 0b00#2 ++ 0b00000#5 ++ 0b111#3 ++ 0b10010#5 ++ 0b11101#5 ++ 0b01000#5 ++ 0b001110#6) = .ok (.divu 7 18 29 8) ∧
  decodeInstr (0b1#1 ++ 0b00#2 ++ 0b00000#5 ++ 0b110#3 ++ 0b11001#5 ++ 0b00100#5 ++ 0b01111#5 ++ 0b001111#6) = .ok (.rem 6 25 4 15) ∧
  decodeInstr (0b1#1 ++ 0b00#2 ++ 0b00000#5 ++ 0b101#3 ++ 0b11111#5 ++ 0b01011#5 ++ 0b10110#5 ++ 0b010000#6) = .ok (.remu 5 31 11 22) ∧
  decodeInstr (0b1#1 ++ 0b00#2 ++ 0b00000#5 ++ 0b100#3 ++ 0b00111#5 ++ 0b10010#5 ++ 0b11101#5 ++ 0b010001#6) = .ok (.min 4 7 18 29) ∧
  decodeInstr (0b1#1 ++ 0b00#2 ++ 0b00000#5 ++ 0b011#3 ++ 0b01110#5 ++ 0b11001#5 ++ 0b00100#5 ++ 0b010010#6) = .ok (.max 3 14 25 4) ∧
  decodeInstr (0b1#1 ++ 0b00#2 ++ 0b00000#5 ++ 0b010#3 ++ 0b10101#5 ++ 0b11111#5 ++ 0b01011#5 ++ 0b010011#6) = .ok (.minu 2 21 31 11) ∧
  decodeInstr (0b1#1 ++ 0b00#2 ++ 0b00000#5 ++ 0b001#3 ++ 0b11100#5 ++ 0b00111#5 ++ 0b10010#5 ++ 0b010100#6) = .ok (.maxu 1 28 7 18) ∧
  decodeInstr (0b1#1 ++ 0b00#2 ++ 0b00000#5 ++ 0b111#3 ++ 0b00011#5 ++ 0b01110#5 ++ 0b11001#5 ++ 0b010101#6) = .ok (.slt 7 3 14 25) ∧
  decodeInstr (0b1#1 ++ 0b00#2 ++ 0b00000#5 ++ 0b111#3 ++ 0b01010#5 ++ 0b10101#5 ++ 0b11111#5 ++ 0b010110#6) = .ok (.sltu 7 10 21 31) ∧
  decodeInstr (0b1#1 ++ 0b00#2 ++ 0b00000#5 ++ 0b110#3 ++ 0b10001#5 ++ 0b11100#5 ++ 0b00111#5 ++ 0b010111#6) = .ok (.seq 6 17 28 7) ∧
  decodeInstr (0b1#1 ++ 0b00#2 ++ 0b00000#5 ++ 0b101#3 ++ 0b11000#5 ++ 0b00011#5 ++ 0b00000011000#11) = .ok (.clz 5 24 3) ∧
  decodeInstr (0b1#1 ++ 0b00#2 ++ 0b00000#5 ++ 0b100#3 ++ 0b11111#5 ++ 0b01010#5 ++ 0b00000011001#11) = .ok (.ctz 4 31 10) ∧
  decodeInstr (0b1#1 ++ 0b00#2 ++ 0b00000#5 ++ 0b011#3 ++ 0b00110#5 ++ 0b10001#5 ++ 0b00000011010#11) = .ok (.popc 3 6 17) :=
  ⟨rfl, rfl, rfl, rfl, rfl, rfl, rfl, rfl, rfl, rfl, rfl, rfl, rfl, rfl, rfl, rfl, rfl, rfl, rfl, rfl, rfl, rfl, rfl, rfl, rfl, rfl, rfl⟩

/-- MAJ 0x01: each word written out from the fields of its layout, stop bit 1 and weight 0. -/
theorem test_decode_ri :
  decodeInstr (0b1#1 ++ 0b00#2 ++ 0b000010000#9 ++ 0b00010#5 ++ 0b01101#5 ++ 0b0011011000#10) = .ok (.addi 2 13 216) ∧
  decodeInstr (0b1#1 ++ 0b00#2 ++ 0b000010001#9 ++ 0b01001#5 ++ 0b10100#5 ++ 0b0011011111#10) = .ok (.andi 9 20 223) ∧
  decodeInstr (0b1#1 ++ 0b00#2 ++ 0b000010010#9 ++ 0b10000#5 ++ 0b11011#5 ++ 0b0011100110#10) = .ok (.ori 16 27 230) ∧
  decodeInstr (0b1#1 ++ 0b00#2 ++ 0b000010011#9 ++ 0b10111#5 ++ 0b00010#5 ++ 0b0011101101#10) = .ok (.xori 23 2 237) ∧
  decodeInstr (0b1#1 ++ 0b00#2 ++ 0b000010100#9 ++ 0b11110#5 ++ 0b01001#5 ++ 0b0000#4 ++ 0b110100#6) = .ok (.slli 30 9 52) ∧
  decodeInstr (0b1#1 ++ 0b00#2 ++ 0b000010101#9 ++ 0b00101#5 ++ 0b10000#5 ++ 0b0000#4 ++ 0b111011#6) = .ok (.srli 5 16 59) ∧
  decodeInstr (0b1#1 ++ 0b00#2 ++ 0b000010110#9 ++ 0b01100#5 ++ 0b10111#5 ++ 0b0000#4 ++ 0b000010#6) = .ok (.srai 12 23 2) ∧
  decodeInstr (0b1#1 ++ 0b00#2 ++ 0b000010111#9 ++ 0b10011#5 ++ 0b11110#5 ++ 0b0100001001#10) = .ok (.slti 19 30 265) ∧
  decodeInstr (0b1#1 ++ 0b00#2 ++ 0b000011000#9 ++ 0b11010#5 ++ 0b00101#5 ++ 0b0100010000#10) = .ok (.sltui 26 5 272) ∧
  decodeInstr (0b1#1 ++ 0b00#2 ++ 0b000011001#9 ++ 0b00001#5 ++ 0b01100#5 ++ 0b0100010111#10) = .ok (.muli 1 12 279) :=
  ⟨rfl, rfl, rfl, rfl, rfl, rfl, rfl, rfl, rfl, rfl⟩

/-- MAJ 0x02: each word written out from the fields of its layout, stop bit 1 and weight 0. -/
theorem test_decode_u :
  decodeInstr (0b1#1 ++ 0b00#2 ++ 0b000100#6 ++ 0b01000#5 ++ 0b000000000100010011#18) = .ok (.lui 8 275) ∧
  decodeInstr (0b1#1 ++ 0b00#2 ++ 0b000101#6 ++ 0b01111#5 ++ 0b000000000100011010#18) = .ok (.auipc 15 282) :=
  ⟨rfl, rfl⟩

/-- MAJ 0x03: each word written out from the fields of its layout, stop bit 1 and weight 0. -/
theorem test_decode_br :
  decodeInstr (0b1#1 ++ 0b00#2 ++ 0b00011000#8 ++ 0b10110#5 ++ 0b00001#5 ++ 0b00100101100#11) = .ok (.beq 22 1 300) ∧
  decodeInstr (0b1#1 ++ 0b00#2 ++ 0b00011001#8 ++ 0b11101#5 ++ 0b01000#5 ++ 0b00100110011#11) = .ok (.bne 29 8 307) ∧
  decodeInstr (0b1#1 ++ 0b00#2 ++ 0b00011010#8 ++ 0b00100#5 ++ 0b01111#5 ++ 0b00100111010#11) = .ok (.blt 4 15 314) ∧
  decodeInstr (0b1#1 ++ 0b00#2 ++ 0b00011011#8 ++ 0b01011#5 ++ 0b10110#5 ++ 0b00101000001#11) = .ok (.bge 11 22 321) ∧
  decodeInstr (0b1#1 ++ 0b00#2 ++ 0b00011100#8 ++ 0b10010#5 ++ 0b11101#5 ++ 0b00101001000#11) = .ok (.bltu 18 29 328) ∧
  decodeInstr (0b1#1 ++ 0b00#2 ++ 0b00011101#8 ++ 0b11001#5 ++ 0b00100#5 ++ 0b00101001111#11) = .ok (.bgeu 25 4 335) ∧
  decodeInstr (0b1#1 ++ 0b00#2 ++ 0b0001111000#10 ++ 0b111#3 ++ 0b00000#5 ++ 0b00101001011#11) = .ok (.bp 7 331) ∧
  decodeInstr (0b1#1 ++ 0b00#2 ++ 0b0001111100#10 ++ 0b111#3 ++ 0b00000#5 ++ 0b00101010010#11) = .ok (.bnp 7 338) :=
  ⟨rfl, rfl, rfl, rfl, rfl, rfl, rfl, rfl⟩

/-- MAJ 0x04: each word written out from the fields of its layout, stop bit 1 and weight 0. -/
theorem test_decode_j :
  decodeInstr (0b1#1 ++ 0b00#2 ++ 0b001000000000#12 ++ 0b00000000101001110#17) = .ok (.j 334) ∧
  decodeInstr (0b1#1 ++ 0b00#2 ++ 0b0010001#7 ++ 0b10101#5 ++ 0b00000000101100000#17) = .ok (.jal 21 352) ∧
  decodeInstr (0b1#1 ++ 0b00#2 ++ 0b0010010#7 ++ 0b11100#5 ++ 0b00000000101100111#17) = .ok (.jr 28 359) ∧
  decodeInstr (0b1#1 ++ 0b00#2 ++ 0b0010011#7 ++ 0b00011#5 ++ 0b00000000101101110#17) = .ok (.jalr 3 366) :=
  ⟨rfl, rfl, rfl, rfl⟩

/-- MAJ 0x05: each word written out from the fields of its layout, stop bit 1 and weight 0. -/
theorem test_decode_loop :
  decodeInstr (0b1#1 ++ 0b00#2 ++ 0b0010100#7 ++ 0b10#2 ++ 0b10101#5 ++ 0b10000000#8 ++ 0b0000000#7) = .ok (.loop 2 21 128) ∧
  decodeInstr (0b1#1 ++ 0b00#2 ++ 0b0010101#7 ++ 0b01#2 ++ 0b10010#5 ++ 0b000000110000111#15) = .ok (.ldelta 1 (.cursor 2) 391) ∧
  decodeInstr (0b1#1 ++ 0b00#2 ++ 0b0010110#7 ++ 0b11#2 ++ 0b00000000000000000000#20) = .ok (.lbrk 3) ∧
  decodeInstr (0b1#1 ++ 0b00#2 ++ 0b0010111#7 ++ 0b11#2 ++ 0b00000000000000000000#20) = .ok (.lclr 3) :=
  ⟨rfl, rfl, rfl, rfl⟩

/-- MAJ 0x06: each word written out from the fields of its layout, stop bit 1 and weight 0. -/
theorem test_decode_misc :
  decodeInstr (0b1#1 ++ 0b00#2 ++ 0b00110000000#11 ++ 0b0110#4 ++ 0b10001#5 ++ 0b000000000#9) = .ok (.movxa 6 17) ∧
  decodeInstr (0b1#1 ++ 0b00#2 ++ 0b00110000001#11 ++ 0b01101#5 ++ 0b1000#4 ++ 0b000000000#9) = .ok (.movax 13 8) ∧
  decodeInstr (0b1#1 ++ 0b00#2 ++ 0b00110000010#11 ++ 0b11#2 ++ 0b11111#5 ++ 0b00000000000#11) = .ok (.movxc 3 31) ∧
  decodeInstr (0b1#1 ++ 0b00#2 ++ 0b00110000011#11 ++ 0b11011#5 ++ 0b10#2 ++ 0b00000000000#11) = .ok (.movcx 27 2) ∧
  decodeInstr (0b1#1 ++ 0b00#2 ++ 0b00110000100#11 ++ 0b010#3 ++ 0b01101#5 ++ 0b0000000000#10) = .ok (.pset 2 13) ∧
  decodeInstr (0b1#1 ++ 0b00#2 ++ 0b00110000101#11 ++ 0b001#3 ++ 0b100#3 ++ 0b111#3 ++ 0b000000000#9) = .ok (.pand 1 4 7) ∧
  decodeInstr (0b1#1 ++ 0b00#2 ++ 0b00110000110#11 ++ 0b111#3 ++ 0b011#3 ++ 0b110#3 ++ 0b000000000#9) = .ok (.por 7 3 6) ∧
  decodeInstr (0b1#1 ++ 0b00#2 ++ 0b00110000111#11 ++ 0b111#3 ++ 0b010#3 ++ 0b101#3 ++ 0b000000000#9) = .ok (.pxor 7 2 5) ∧
  decodeInstr (0b1#1 ++ 0b00#2 ++ 0b00110001000#11 ++ 0b110#3 ++ 0b001#3 ++ 0b000000000000#12) = .ok (.pnot 6 1) ∧
  decodeInstr (0b1#1 ++ 0b00#2 ++ 0b00110001001#11 ++ 0b00101#5 ++ 0b111010000#9 ++ 0b0000#4) = .ok (.rdctl 5 464) ∧
  decodeInstr (0b1#1 ++ 0b00#2 ++ 0b00110001010#11 ++ 0b01100#5 ++ 0b111010111#9 ++ 0b0000#4) = .ok (.wrctl 12 471) ∧
  decodeInstr (0b1#1 ++ 0b00#2 ++ 0b00110001011#11 ++ 0b10011#5 ++ 0b0000000000000#13) = .ok (.rdcyc 19) ∧
  decodeInstr (0b1#1 ++ 0b00#2 ++ 0b00110001100#11 ++ 0b11010#5 ++ 0b00101#5 ++ 0b10000#5 ++ 0b011#3) = .ok (.sel 26 5 16 3) :=
  ⟨rfl, rfl, rfl, rfl, rfl, rfl, rfl, rfl, rfl, rfl, rfl, rfl, rfl⟩

/-- MAJ 0x07: each word written out from the fields of its layout, stop bit 1 and weight 0. -/
theorem test_decode_sys :
  decodeInstr (0b1#1 ++ 0b00#2 ++ 0b00111000000000000000000000000#29) = .ok .nop ∧
  decodeInstr (0b1#1 ++ 0b00#2 ++ 0b00111000001000000000000000000#29) = .ok .halt ∧
  decodeInstr (0b1#1 ++ 0b00#2 ++ 0b0011100001000#13 ++ 0b0000000111101111#16) = .ok (.trap 495) ∧
  decodeInstr (0b1#1 ++ 0b00#2 ++ 0b00111000011000000000000000000#29) = .ok .rfe ∧
  decodeInstr (0b1#1 ++ 0b00#2 ++ 0b00111000100#11 ++ 0b11101#5 ++ 0b0000000000000#13) = .ok (.sleepu 29) ∧
  decodeInstr (0b1#1 ++ 0b00#2 ++ 0b00111000101#11 ++ 0b010#3 ++ 0b000000000000000#15) = .ok (.fence .panel) ∧
  decodeInstr (0b1#1 ++ 0b00#2 ++ 0b00111000110#11 ++ 0b011#3 ++ 0b000000000000000#15) = .ok (.opsel 3) ∧
  decodeInstr (0b1#1 ++ 0b00#2 ++ 0b00111000111#11 ++ 0b10010#5 ++ 0b1101#4 ++ 0b000000000#9) = .ok (.klaunch 18 13) ∧
  decodeInstr (0b1#1 ++ 0b00#2 ++ 0b00111001000000000000000000000#29) = .ok .yield ∧
  decodeInstr (0b1#1 ++ 0b00#2 ++ 0b0011100100100#13 ++ 0b0000001000100000#16) = .ok (.brk 544) ∧
  decodeInstr (0b1#1 ++ 0b00#2 ++ 0b00111001010#11 ++ 0b00111#5 ++ 0b0000000000000#13) = .ok (.waitw 7) ∧
  decodeInstr (0b1#1 ++ 0b00#2 ++ 0b00111001011#11 ++ 0b01110#5 ++ 0b1001#4 ++ 0b000000000#9) = .ok (.accrd 14 9) :=
  ⟨rfl, rfl, rfl, rfl, rfl, rfl, rfl, rfl, rfl, rfl, rfl, rfl⟩

/-- MAJ 0x08: each word written out from the fields of its layout, stop bit 1 and weight 0. -/
theorem test_decode_vrr :
  decodeInstr (0b1#1 ++ 0b00#2 ++ 0b01000#5 ++ 0b110101#6 ++ 0b111111#6 ++ 0b001011#6 ++ 0b000000#6) = .ok (.vadd 53 63 11) ∧
  decodeInstr (0b1#1 ++ 0b00#2 ++ 0b01000#5 ++ 0b111100#6 ++ 0b000111#6 ++ 0b010010#6 ++ 0b000001#6) = .ok (.vsub 60 7 18) ∧
  decodeInstr (0b1#1 ++ 0b00#2 ++ 0b01000#5 ++ 0b000011#6 ++ 0b001110#6 ++ 0b011001#6 ++ 0b000010#6) = .ok (.vmul 3 14 25) ∧
  decodeInstr (0b1#1 ++ 0b00#2 ++ 0b01000#5 ++ 0b001010#6 ++ 0b010101#6 ++ 0b100000#6 ++ 0b000011#6) = .ok (.vfma 10 21 32) ∧
  decodeInstr (0b1#1 ++ 0b00#2 ++ 0b01000#5 ++ 0b010001#6 ++ 0b011100#6 ++ 0b100111#6 ++ 0b000100#6) = .ok (.vmin 17 28 39) ∧
  decodeInstr (0b1#1 ++ 0b00#2 ++ 0b01000#5 ++ 0b011000#6 ++ 0b100011#6 ++ 0b101110#6 ++ 0b000101#6) = .ok (.vmax 24 35 46) ∧
  decodeInstr (0b1#1 ++ 0b00#2 ++ 0b01000#5 ++ 0b011111#6 ++ 0b101010#6 ++ 0b110101#6 ++ 0b000110#6) = .ok (.vand 31 42 53) ∧
  decodeInstr (0b1#1 ++ 0b00#2 ++ 0b01000#5 ++ 0b100110#6 ++ 0b110001#6 ++ 0b111100#6 ++ 0b000111#6) = .ok (.vor 38 49 60) ∧
  decodeInstr (0b1#1 ++ 0b00#2 ++ 0b01000#5 ++ 0b101101#6 ++ 0b111000#6 ++ 0b000011#6 ++ 0b001000#6) = .ok (.vxor 45 56 3) ∧
  decodeInstr (0b1#1 ++ 0b00#2 ++ 0b01000#5 ++ 0b110100#6 ++ 0b111111#6 ++ 0b001010#6 ++ 0b001001#6) = .ok (.vshl 52 63 10) ∧
  decodeInstr (0b1#1 ++ 0b00#2 ++ 0b01000#5 ++ 0b111011#6 ++ 0b000110#6 ++ 0b010001#6 ++ 0b001010#6) = .ok (.vshr 59 6 17) ∧
  decodeInstr (0b1#1 ++ 0b00#2 ++ 0b01000#5 ++ 0b000010#6 ++ 0b001101#6 ++ 0b011000#6 ++ 0b001011#6) = .ok (.vsel 2 13 24) ∧
  decodeInstr (0b1#1 ++ 0b00#2 ++ 0b01000#5 ++ 0b001001#6 ++ 0b010100#6 ++ 0b011111#6 ++ 0b001100#6) = .ok (.vcmpeq 9 20 31) ∧
  decodeInstr (0b1#1 ++ 0b00#2 ++ 0b01000#5 ++ 0b010000#6 ++ 0b011011#6 ++ 0b100110#6 ++ 0b001101#6) = .ok (.vcmplt 16 27 38) ∧
  decodeInstr (0b1#1 ++ 0b00#2 ++ 0b01000#5 ++ 0b010111#6 ++ 0b100010#6 ++ 0b101101#6 ++ 0b001110#6) = .ok (.vcmple 23 34 45) ∧
  decodeInstr (0b1#1 ++ 0b00#2 ++ 0b01000#5 ++ 0b011110#6 ++ 0b101001#6 ++ 0b110100#6 ++ 0b001111#6) = .ok (.vabsd 30 41 52) :=
  ⟨rfl, rfl, rfl, rfl, rfl, rfl, rfl, rfl, rfl, rfl, rfl, rfl, rfl, rfl, rfl, rfl⟩

/-- MAJ 0x09: each word written out from the fields of its layout, stop bit 1 and weight 0. -/
theorem test_decode_vrs :
  decodeInstr (0b1#1 ++ 0b00#2 ++ 0b01001#5 ++ 0b100101#6 ++ 0b110000#6 ++ 0b11011#5 ++ 0b0000000#7) = .ok (.vadds 37 48 27) ∧
  decodeInstr (0b1#1 ++ 0b00#2 ++ 0b01001#5 ++ 0b101100#6 ++ 0b110111#6 ++ 0b00010#5 ++ 0b0001000#7) = .ok (.vmuls 44 55 2) ∧
  decodeInstr (0b1#1 ++ 0b00#2 ++ 0b01001#5 ++ 0b110011#6 ++ 0b111110#6 ++ 0b01001#5 ++ 0b0010000#7) = .ok (.vfmas 51 62 9) ∧
  decodeInstr (0b1#1 ++ 0b00#2 ++ 0b01001#5 ++ 0b111010#6 ++ 0b000101#6 ++ 0b10000#5 ++ 0b0011000#7) = .ok (.vmins 58 5 16) ∧
  decodeInstr (0b1#1 ++ 0b00#2 ++ 0b01001#5 ++ 0b000001#6 ++ 0b001100#6 ++ 0b10111#5 ++ 0b0100000#7) = .ok (.vmaxs 1 12 23) ∧
  decodeInstr (0b1#1 ++ 0b00#2 ++ 0b01001#5 ++ 0b001000#6 ++ 0b000000#6 ++ 0b10011#5 ++ 0b0101000#7) = .ok (.vsplat 8 19) :=
  ⟨rfl, rfl, rfl, rfl, rfl, rfl⟩

/-- MAJ 0x0A: each word written out from the fields of its layout, stop bit 1 and weight 0. -/
theorem test_decode_cvt :
  decodeInstr (0b1#1 ++ 0b00#2 ++ 0b01010#5 ++ 0b001111#6 ++ 0b011010#6 ++ 0b0011#4 ++ 0b01#2 ++ 0b000000#6) = .ok (.vcvt 15 26 .int32 .rtz) ∧
  decodeInstr (0b1#1 ++ 0b00#2 ++ 0b01010000000#11 ++ 0b010110#6 ++ 0b1000#4 ++ 0b00000001#8) = .ok (.vmaxexp 22 .db4) ∧
  decodeInstr (0b1#1 ++ 0b00#2 ++ 0b01010#5 ++ 0b011101#6 ++ 0b101000#6 ++ 0b0111#4 ++ 0b00000010#8) = .ok (.vqnt 29 40 .db8) ∧
  decodeInstr (0b1#1 ++ 0b00#2 ++ 0b01010#5 ++ 0b100100#6 ++ 0b101111#6 ++ 0b1000#4 ++ 0b00000011#8) = .ok (.vdqnt 36 47 .db4) ∧
  decodeInstr (0b1#1 ++ 0b00#2 ++ 0b01010#5 ++ 0b101011#6 ++ 0b110110#6 ++ 0b0000#4 ++ 0b10#2 ++ 0b000100#6) = .ok (.vrnd 43 54 .rdn) :=
  ⟨rfl, rfl, rfl, rfl, rfl⟩

/-- MAJ 0x0B: each word written out from the fields of its layout, stop bit 1 and weight 0. -/
theorem test_decode_red :
  decodeInstr (0b1#1 ++ 0b00#2 ++ 0b01011#5 ++ 0b110010#6 ++ 0b111101#6 ++ 0b000000000000#12) = .ok (.vrsum 50 61) ∧
  decodeInstr (0b1#1 ++ 0b00#2 ++ 0b01011#5 ++ 0b111001#6 ++ 0b000100#6 ++ 0b000000000001#12) = .ok (.vrmax 57 4) ∧
  decodeInstr (0b1#1 ++ 0b00#2 ++ 0b01011#5 ++ 0b111111#6 ++ 0b001011#6 ++ 0b000000000010#12) = .ok (.vrmin 63 11) ∧
  decodeInstr (0b1#1 ++ 0b00#2 ++ 0b01011#5 ++ 0b000111#6 ++ 0b010010#6 ++ 0b000000000011#12) = .ok (.vramax 7 18) ∧
  decodeInstr (0b1#1 ++ 0b00#2 ++ 0b01011#5 ++ 0b001110#6 ++ 0b011001#6 ++ 0b100100#6 ++ 0b000100#6) = .ok (.vperm 14 25 36) ∧
  decodeInstr (0b1#1 ++ 0b00#2 ++ 0b010110#6 ++ 0b10101#5 ++ 0b100000#6 ++ 0b01011#5 ++ 0b0000101#7) = .ok (.vext 21 32 11) ∧
  decodeInstr (0b1#1 ++ 0b00#2 ++ 0b01011#5 ++ 0b011100#6 ++ 0b00111#5 ++ 0b10010#5 ++ 0b00000110#8) = .ok (.vins 28 7 18) ∧
  decodeInstr (0b1#1 ++ 0b00#2 ++ 0b01011#5 ++ 0b100011#6 ++ 0b000000000000000111#18) = .ok (.viota 35) ∧
  decodeInstr (0b1#1 ++ 0b00#2 ++ 0b01011#5 ++ 0b101010#6 ++ 0b110101#6 ++ 0b111111#6 ++ 0b001000#6) = .ok (.vcompr 42 53 63) :=
  ⟨rfl, rfl, rfl, rfl, rfl, rfl, rfl, rfl, rfl⟩

/-- MAJ 0x0C: each word written out from the fields of its layout, stop bit 1 and weight 0. -/
theorem test_decode_tile :
  decodeInstr (0b1#1 ++ 0b00#2 ++ 0b01100#5 ++ 0b0001#4 ++ 0b0110#4 ++ 0b000111#6 ++ 0b1#1 ++ 0b1#1 ++ 0b00000000#8) = .ok (.tcfg 1 .fp32 7 1 1) ∧
  decodeInstr (0b1#1 ++ 0b00#2 ++ 0b01100#5 ++ 0b1000#4 ++ 0b00000000000000000001#20) = .ok (.tzero 8) ∧
  decodeInstr (0b1#1 ++ 0b00#2 ++ 0b01100#5 ++ 0b1111#4 ++ 0b1010#4 ++ 0b0000000000000010#16) = .ok (.tmov 15 10) ∧
  decodeInstr (0b1#1 ++ 0b00#2 ++ 0b01100#5 ++ 0b0110#4 ++ 0b01#2 ++ 0b11100#5 ++ 0b0000000000011#13) = .ok (.ttag 6 1 28) :=
  ⟨rfl, rfl, rfl, rfl⟩

/-- MAJ 0x0D: each word written out from the fields of its layout, stop bit 1 and weight 0. -/
theorem test_decode_ldst :
  decodeInstr (0b1#1 ++ 0b00#2 ++ 0b01101#5 ++ 0b001101#6 ++ 0b1000#4 ++ 0b1101100011#10 ++ 0b0000#4) = .ok (.vld 13 8 867) ∧
  decodeInstr (0b1#1 ++ 0b00#2 ++ 0b01101#5 ++ 0b010100#6 ++ 0b1111#4 ++ 0b1101101010#10 ++ 0b0100#4) = .ok (.vst 20 15 874) ∧
  decodeInstr (0b1#1 ++ 0b00#2 ++ 0b01101000000#11 ++ 0b1011#4 ++ 0b1101100110#10 ++ 0b1000#4) = .ok (.vlde 11 870) ∧
  decodeInstr (0b1#1 ++ 0b00#2 ++ 0b01101000000#11 ++ 0b0010#4 ++ 0b1101101101#10 ++ 0b1100#4) = .ok (.vste 2 877) :=
  ⟨rfl, rfl, rfl, rfl⟩

/-- MAJ 0x0E: each word written out from the fields of its layout, stop bit 1 and weight 0. -/
theorem test_decode_fn :
  decodeInstr (0b1#1 ++ 0b00#2 ++ 0b01110#5 ++ 0b101001#6 ++ 0b110100#6 ++ 0b000000000000#12) = .ok (.frcp 41 52) ∧
  decodeInstr (0b1#1 ++ 0b00#2 ++ 0b01110#5 ++ 0b110000#6 ++ 0b111011#6 ++ 0b001000000000#12) = .ok (.frsq 48 59) ∧
  decodeInstr (0b1#1 ++ 0b00#2 ++ 0b01110#5 ++ 0b110111#6 ++ 0b000010#6 ++ 0b010000000000#12) = .ok (.fsqrt 55 2) ∧
  decodeInstr (0b1#1 ++ 0b00#2 ++ 0b01110#5 ++ 0b111110#6 ++ 0b001001#6 ++ 0b011000000000#12) = .ok (.fexp2 62 9) ∧
  decodeInstr (0b1#1 ++ 0b00#2 ++ 0b01110#5 ++ 0b000101#6 ++ 0b010000#6 ++ 0b100000000000#12) = .ok (.flog2 5 16) ∧
  decodeInstr (0b1#1 ++ 0b00#2 ++ 0b01110#5 ++ 0b001100#6 ++ 0b010111#6 ++ 0b101000000000#12) = .ok (.fexpt 12 23) ∧
  decodeInstr (0b1#1 ++ 0b00#2 ++ 0b01110#5 ++ 0b010011#6 ++ 0b011110#6 ++ 0b110000000000#12) = .ok (.ftanh 19 30) ∧
  decodeInstr (0b1#1 ++ 0b00#2 ++ 0b01110#5 ++ 0b011010#6 ++ 0b100101#6 ++ 0b111000000000#12) = .ok (.fsigm 26 37) :=
  ⟨rfl, rfl, rfl, rfl, rfl, rfl, rfl, rfl⟩

/-- MAJ 0x0F: each word written out from the fields of its layout, stop bit 1 and weight 0. -/
theorem test_decode_gate :
  decodeInstr (0b1#1 ++ 0b00#2 ++ 0b01111#5 ++ 0b100001#6 ++ 0b101100#6 ++ 0b111#3 ++ 0b000000000#9) = .ok (.gtopk 33 44 7) ∧
  decodeInstr (0b1#1 ++ 0b00#2 ++ 0b01111#5 ++ 0b101000#6 ++ 0b110011#6 ++ 0b110#3 ++ 0b000000001#9) = .ok (.gsmax 40 51 6) ∧
  decodeInstr (0b1#1 ++ 0b00#2 ++ 0b01111#5 ++ 0b101111#6 ++ 0b111010#6 ++ 0b000000000010#12) = .ok (.ghist 47 58) :=
  ⟨rfl, rfl, rfl⟩

/-- MAJ 0x10: each word written out from the fields of its layout, stop bit 1 and weight 0. -/
theorem test_decode_mma :
  decodeInstr (0b1#1 ++ 0b00#2 ++ 0b10000#5 ++ 0b0110#4 ++ 0b0001#4 ++ 0b001100#6 ++ 0b0111#4 ++ 0b0010#4 ++ 0b00#2) = .ok (.mma 6 1 12 7 2) ∧
  decodeInstr (0b1#1 ++ 0b00#2 ++ 0b10000#5 ++ 0b1101#4 ++ 0b1000#4 ++ 0b010011#6 ++ 0b1110#4 ++ 0b1001#4 ++ 0b01#2) = .ok (.mmaz 13 8 19 14 9) ∧
  decodeInstr (0b1#1 ++ 0b00#2 ++ 0b10000#5 ++ 0b0100#4 ++ 0b1111#4 ++ 0b011010#6 ++ 0b0101#4 ++ 0b1111#4 ++ 0b10#2) = .ok (.mmat 4 15 26 5 15) :=
  ⟨rfl, rfl, rfl⟩

/-- MAJ 0x11: each word written out from the fields of its layout, stop bit 1 and weight 0. -/
theorem test_decode_mmag :
  decodeInstr (0b1#1 ++ 0b00#2 ++ 0b10001#5 ++ 0b1011#4 ++ 0b010110#6 ++ 0b100001#6 ++ 0b1100#4 ++ 0b0111#4) = .ok (.mmag 11 22 33 12 7) :=
  rfl

/-- MAJ 0x12: each word written out from the fields of its layout, stop bit 1 and weight 0. -/
theorem test_decode_ctl :
  decodeInstr (0b1#1 ++ 0b00#2 ++ 0b1001000#7 ++ 0b010010#6 ++ 0b11101#5 ++ 0b0#1 ++ 0b1000#4 ++ 0b0011#4 ++ 0b00#2) = .ok (.mgset 18 29 8 3) ∧
  decodeInstr (0b1#1 ++ 0b00#2 ++ 0b1001001000000000000#19 ++ 0b1001#4 ++ 0b0100#4 ++ 0b00#2) = .ok (.mdrain 9 4) :=
  ⟨rfl, rfl⟩

/-- MAJ 0x13: each word written out from the fields of its layout, stop bit 1 and weight 0. -/
theorem test_decode_spec :
  decodeInstr (0b1#1 ++ 0b00#2 ++ 0b10011#5 ++ 0b1111#4 ++ 0b1011#4 ++ 0b110110#6 ++ 0b00001#5 ++ 0b00000#5) = .ok (.resolve 15 11 54 1) ∧
  decodeInstr (0b1#1 ++ 0b00#2 ++ 0b10011#5 ++ 0b0111#4 ++ 0b0010#4 ++ 0b0000000000000001#16) = .ok (.tcommit 7 2) ∧
  decodeInstr (0b1#1 ++ 0b00#2 ++ 0b100110000#9 ++ 0b1110#4 ++ 0b0000000000000010#16) = .ok (.tsquash 14) ∧
  decodeInstr (0b1#1 ++ 0b00#2 ++ 0b1001100000000000000#19 ++ 0b10101#5 ++ 0b00011#5) = .ok (.rlist 21) :=
  ⟨rfl, rfl, rfl, rfl⟩

/-- MAJ 0x14: each word written out from the fields of its layout, stop bit 1 and weight 0. -/
theorem test_decode_ld :
  decodeInstr (0b1#1 ++ 0b00#2 ++ 0b10100#5 ++ 0b100#3 ++ 0b000#3 ++ 0b00111#5 ++ 0b0010#4 ++ 0b000011101#9) = .ok (.ldbu 4 7 2 29) ∧
  decodeInstr (0b1#1 ++ 0b00#2 ++ 0b10100#5 ++ 0b011#3 ++ 0b001#3 ++ 0b01110#5 ++ 0b1001#4 ++ 0b000100100#9) = .ok (.ldb 3 14 9 36) ∧
  decodeInstr (0b1#1 ++ 0b00#2 ++ 0b10100#5 ++ 0b010#3 ++ 0b010#3 ++ 0b10101#5 ++ 0b1111#4 ++ 0b000101011#9) = .ok (.ldhu 2 21 15 43) ∧
  decodeInstr (0b1#1 ++ 0b00#2 ++ 0b10100#5 ++ 0b001#3 ++ 0b011#3 ++ 0b11100#5 ++ 0b0111#4 ++ 0b000110010#9) = .ok (.ldh 1 28 7 50) ∧
  decodeInstr (0b1#1 ++ 0b00#2 ++ 0b10100#5 ++ 0b111#3 ++ 0b100#3 ++ 0b00011#5 ++ 0b1110#4 ++ 0b000111001#9) = .ok (.ldwu 7 3 14 57) ∧
  decodeInstr (0b1#1 ++ 0b00#2 ++ 0b10100#5 ++ 0b111#3 ++ 0b101#3 ++ 0b01010#5 ++ 0b0101#4 ++ 0b001000000#9) = .ok (.ldw 7 10 5 64) ∧
  decodeInstr (0b1#1 ++ 0b00#2 ++ 0b10100#5 ++ 0b110#3 ++ 0b110#3 ++ 0b10001#5 ++ 0b1100#4 ++ 0b001000111#9) = .ok (.ldd 6 17 12 71) :=
  ⟨rfl, rfl, rfl, rfl, rfl, rfl, rfl⟩

/-- MAJ 0x15: each word written out from the fields of its layout, stop bit 1 and weight 0. -/
theorem test_decode_st :
  decodeInstr (0b1#1 ++ 0b00#2 ++ 0b10101#5 ++ 0b101#3 ++ 0b000#3 ++ 0b11000#5 ++ 0b0011#4 ++ 0b001001110#9) = .ok (.stb 5 24 3 78) ∧
  decodeInstr (0b1#1 ++ 0b00#2 ++ 0b10101#5 ++ 0b100#3 ++ 0b010#3 ++ 0b11111#5 ++ 0b1010#4 ++ 0b001010101#9) = .ok (.sth 4 31 10 85) ∧
  decodeInstr (0b1#1 ++ 0b00#2 ++ 0b10101#5 ++ 0b011#3 ++ 0b100#3 ++ 0b00110#5 ++ 0b0001#4 ++ 0b001011100#9) = .ok (.stw 3 6 1 92) ∧
  decodeInstr (0b1#1 ++ 0b00#2 ++ 0b10101#5 ++ 0b010#3 ++ 0b110#3 ++ 0b01101#5 ++ 0b1000#4 ++ 0b001100011#9) = .ok (.std 2 13 8 99) :=
  ⟨rfl, rfl, rfl, rfl⟩

/-- MAJ 0x16: each word written out from the fields of its layout, stop bit 1 and weight 0. -/
theorem test_decode_atom :
  decodeInstr (0b1#1 ++ 0b00#2 ++ 0b10110#5 ++ 0b001#3 ++ 0b000#3 ++ 0b10100#5 ++ 0b1111#4 ++ 0b01010#5 ++ 0b1#1 ++ 0b1#1 ++ 0b11#2) = .ok (.aadd .rod 20 15 10 1 3) ∧
  decodeInstr (0b1#1 ++ 0b00#2 ++ 0b10110#5 ++ 0b010#3 ++ 0b001#3 ++ 0b11011#5 ++ 0b0110#4 ++ 0b10001#5 ++ 0b1#1 ++ 0b1#1 ++ 0b11#2) = .ok (.amax .panel 27 6 17 1 3) ∧
  decodeInstr (0b1#1 ++ 0b00#2 ++ 0b10110#5 ++ 0b011#3 ++ 0b010#3 ++ 0b00010#5 ++ 0b1101#4 ++ 0b11000#5 ++ 0b1#1 ++ 0b1#1 ++ 0b10#2) = .ok (.amin .chip 2 13 24 1 2) ∧
  decodeInstr (0b1#1 ++ 0b00#2 ++ 0b10110#5 ++ 0b100#3 ++ 0b011#3 ++ 0b01001#5 ++ 0b0100#4 ++ 0b11111#5 ++ 0b1#1 ++ 0b1#1 ++ 0b01#2) = .ok (.amaxu .domain 9 4 31 1 1) ∧
  decodeInstr (0b1#1 ++ 0b00#2 ++ 0b10110#5 ++ 0b001#3 ++ 0b100#3 ++ 0b10000#5 ++ 0b1011#4 ++ 0b00110#5 ++ 0b1#1 ++ 0b1#1 ++ 0b11#2) = .ok (.axchg .rod 16 11 6 1 3) ∧
  decodeInstr (0b1#1 ++ 0b00#2 ++ 0b10110#5 ++ 0b010#3 ++ 0b101#3 ++ 0b10111#5 ++ 0b0010#4 ++ 0b01101#5 ++ 0b1#1 ++ 0b1#1 ++ 0b11#2) = .ok (.acas .panel 23 2 13 1 3) ∧
  decodeInstr (0b1#1 ++ 0b00#2 ++ 0b10110#5 ++ 0b011#3 ++ 0b110#3 ++ 0b11110#5 ++ 0b1001#4 ++ 0b10100#5 ++ 0b1#1 ++ 0b1#1 ++ 0b10#2) = .ok (.aand .chip 30 9 20 1 2) ∧
  decodeInstr (0b1#1 ++ 0b00#2 ++ 0b10110#5 ++ 0b100#3 ++ 0b111#3 ++ 0b00101#5 ++ 0b1111#4 ++ 0b11011#5 ++ 0b1#1 ++ 0b1#1 ++ 0b01#2) = .ok (.aor .domain 5 15 27 1 1) :=
  ⟨rfl, rfl, rfl, rfl, rfl, rfl, rfl, rfl⟩

/-- MAJ 0x17: each word written out from the fields of its layout, stop bit 1 and weight 0. -/
theorem test_decode_copy :
  decodeInstr (0b1#1 ++ 0b00#2 ++ 0b10111#5 ++ 0b000001#6 ++ 0b001100#6 ++ 0b0111#4 ++ 0b0010#4 ++ 0b0000#4) = .ok (.cpy 1 12 7 2) ∧
  decodeInstr (0b1#1 ++ 0b00#2 ++ 0b10111#5 ++ 0b001000#6 ++ 0b010011#6 ++ 0b1110#4 ++ 0b1001#4 ++ 0b0001#4) = .ok (.cpycv 8 19 14 9) ∧
  decodeInstr (0b1#1 ++ 0b00#2 ++ 0b10111#5 ++ 0b001111#6 ++ 0b011010#6 ++ 0b0101#4 ++ 0b1111#4 ++ 0b0010#4) = .ok (.cpyz 15 26 5 15) ∧
  decodeInstr (0b1#1 ++ 0b00#2 ++ 0b10111#5 ++ 0b010110#6 ++ 0b100001#6 ++ 0b1100#4 ++ 0b0111#4 ++ 0b0011#4) = .ok (.cpyl2 22 33 12 7) ∧
  decodeInstr (0b1#1 ++ 0b00#2 ++ 0b10111#5 ++ 0b011101#6 ++ 0b000000#6 ++ 0b1000#4 ++ 0b0011#4 ++ 0b0100#4) = .ok (.cpypf 29 8 3) ∧
  decodeInstr (0b1#1 ++ 0b00#2 ++ 0b10111#5 ++ 0b100100#6 ++ 0b000000#6 ++ 0b1111#4 ++ 0b1010#4 ++ 0b0101#4) = .ok (.cpywb 36 15 10) :=
  ⟨rfl, rfl, rfl, rfl, rfl, rfl⟩

/-- MAJ 0x18: each word written out from the fields of its layout, stop bit 1 and weight 0. -/
theorem test_decode_tok :
  decodeInstr (0b1#1 ++ 0b00#2 ++ 0b110000000#9 ++ 0b1011#4 ++ 0b0000000000000000#16) = .ok (.tkwait 11) ∧
  decodeInstr (0b1#1 ++ 0b00#2 ++ 0b110000001#9 ++ 0b0010#4 ++ 0b11101#5 ++ 0b00000000000#11) = .ok (.tktest 2 29) ∧
  decodeInstr (0b1#1 ++ 0b00#2 ++ 0b110000010#9 ++ 0b1001#4 ++ 0b0100#4 ++ 0b1111#4 ++ 0b1010#4 ++ 0b0000#4) = .ok (.tkjoin 9 4 15 10) ∧
  decodeInstr (0b1#1 ++ 0b00#2 ++ 0b110000011#9 ++ 0b1111#4 ++ 0b01011#5 ++ 0b00000000000#11) = .ok (.tkprom 15 11) ∧
  decodeInstr (0b1#1 ++ 0b00#2 ++ 0b110000100#9 ++ 0b0111#4 ++ 0b0#1 ++ 0b1#1 ++ 0b00000000000000#14) = .ok (.tkset 7 1) ∧
  decodeInstr (0b1#1 ++ 0b00#2 ++ 0b110000101#9 ++ 0b001110#6 ++ 0b1001#4 ++ 0b0100#4 ++ 0b000000#6) = .ok (.probe 14 9 4) ∧
  decodeInstr (0b1#1 ++ 0b00#2 ++ 0b110000110#9 ++ 0b010101#6 ++ 0b1111#4 ++ 0b1011#4 ++ 0b000000#6) = .ok (.probew 21 15 11) :=
  ⟨rfl, rfl, rfl, rfl, rfl, rfl, rfl⟩

/-- MAJ 0x19: each word written out from the fields of its layout, stop bit 1 and weight 0. -/
theorem test_decode_sync :
  decodeInstr (0b1#1 ++ 0b00#2 ++ 0b110010000#9 ++ 0b010#3 ++ 0b00111#5 ++ 0b0000#4 ++ 0b0010#4 ++ 0b1101#4) = .ok (.bar .panel 7 2 13) ∧
  decodeInstr (0b1#1 ++ 0b00#2 ++ 0b110010001#9 ++ 0b0011#4 ++ 0b01110#5 ++ 0b00000000000#11) = .ok (.barba 3 14) ∧
  decodeInstr (0b1#1 ++ 0b00#2 ++ 0b110010010#9 ++ 0b1010#4 ++ 0b00000000#8 ++ 0b0101#4 ++ 0b1111#4) = .ok (.barbw 10 5 15) ∧
  decodeInstr (0b1#1 ++ 0b00#2 ++ 0b110010011#9 ++ 0b11110001#8 ++ 0b11100#5 ++ 0b0000000#7) = .ok (.rtick 241 28) ∧
  decodeInstr (0b1#1 ++ 0b00#2 ++ 0b110010100#9 ++ 0b11111000#8 ++ 0b00011#5 ++ 0b1110#4 ++ 0b000#3) = .ok (.rfill 248 3 14) ∧
  decodeInstr (0b1#1 ++ 0b00#2 ++ 0b110010101#9 ++ 0b11111111#8 ++ 0b01010#5 ++ 0b0000000#7) = .ok (.rtake 255 10) ∧
  decodeInstr (0b1#1 ++ 0b00#2 ++ 0b110010110#9 ++ 0b00000110#8 ++ 0b0000#4 ++ 0b0001#4 ++ 0b1100#4) = .ok (.rwait 6 1 12) ∧
  decodeInstr (0b1#1 ++ 0b00#2 ++ 0b110010111#9 ++ 0b01101#5 ++ 0b11000#5 ++ 0b0000000000#10) = .ok (.pqpush 13 24) ∧
  decodeInstr (0b1#1 ++ 0b00#2 ++ 0b110011000#9 ++ 0b10100#5 ++ 0b000000000000000#15) = .ok (.pqpop 20) :=
  ⟨rfl, rfl, rfl, rfl, rfl, rfl, rfl, rfl, rfl⟩

/-- MAJ 0x1A: each word written out from the fields of its layout, stop bit 1 and weight 0. -/
theorem test_decode_link :
  decodeInstr (0b1#1 ++ 0b00#2 ++ 0b110100000#9 ++ 0b011011#6 ++ 0b00110#5 ++ 0b0#1 ++ 0b0001#4 ++ 0b1100#4) = .ok (.send 27 6 1 12) ∧
  decodeInstr (0b1#1 ++ 0b00#2 ++ 0b110100000#9 ++ 0b100010#6 ++ 0b01101#5 ++ 0b1#1 ++ 0b1000#4 ++ 0b0011#4) = .ok (.sendQ 34 13 8 3) ∧
  decodeInstr (0b1#1 ++ 0b00#2 ++ 0b110100001#9 ++ 0b101001#6 ++ 0b10100#5 ++ 0b0#1 ++ 0b1111#4 ++ 0b1010#4) = .ok (.sendr 41 20 15 10) ∧
  decodeInstr (0b1#1 ++ 0b00#2 ++ 0b110100010#9 ++ 0b110000#6 ++ 0b11011#5 ++ 0b0#1 ++ 0b0110#4 ++ 0b0001#4) = .ok (.recv 48 27 6 1) ∧
  decodeInstr (0b1#1 ++ 0b00#2 ++ 0b110100011#9 ++ 0b10111#5 ++ 0b00010#5 ++ 0b0000000000#10) = .ok (.recvq 23 2) ∧
  decodeInstr (0b1#1 ++ 0b00#2 ++ 0b110100100000000#15 ++ 0b11110#5 ++ 0b000000000#9) = .ok (.gretire 30) ∧
  decodeInstr (0b1#1 ++ 0b00#2 ++ 0b110100101#9 ++ 0b000101#6 ++ 0b10000#5 ++ 0b0#1 ++ 0b1011#4 ++ 0b0110#4) = .ok (.sendG 5 16 11 6) :=
  ⟨rfl, rfl, rfl, rfl, rfl, rfl, rfl⟩

/-- MAJ 0x1B: each word written out from the fields of its layout, stop bit 1 and weight 0. -/
theorem test_decode_pred :
  decodeInstr (0b1#1 ++ 0b00#2 ++ 0b110110000#9 ++ 0b01100#5 ++ 0b10111#5 ++ 0b0000000000#10) = .ok (.plook 12 23) ∧
  decodeInstr (0b1#1 ++ 0b00#2 ++ 0b11011000100000#14 ++ 0b10011#5 ++ 0b11110#5 ++ 0b00000#5) = .ok (.ptrain 19 30) ∧
  decodeInstr (0b1#1 ++ 0b00#2 ++ 0b11011001000000000000000000000#29) = .ok .pclr ∧
  decodeInstr (0b1#1 ++ 0b00#2 ++ 0b11011001100000#14 ++ 0b00001#5 ++ 0b0000000000#10) = .ok (.pcfg 1) :=
  ⟨rfl, rfl, rfl, rfl⟩

/-- MAJ 0x1C: each word written out from the fields of its layout, stop bit 1 and weight 0. -/
theorem test_decode_lace :
  decodeInstr (0b1#1 ++ 0b00#2 ++ 0b111000000#9 ++ 0b01000#5 ++ 0b000000000000000#15) = .ok (.sjoin 8) ∧
  decodeInstr (0b1#1 ++ 0b00#2 ++ 0b111000001#9 ++ 0b101111#6 ++ 0b000000#6 ++ 0b1010#4 ++ 0b0101#4) = .ok (.spub 47 10 5) ∧
  decodeInstr (0b1#1 ++ 0b00#2 ++ 0b111000010#9 ++ 0b110110#6 ++ 0b000000#6 ++ 0b0001#4 ++ 0b1100#4) = .ok (.scons 54 1 12) :=
  ⟨rfl, rfl, rfl⟩

/-! ### The state helpers of the witnesses -/

/-- The word of a slot of weight 1. -/
def word (stop : Bool) (i : Instr) : BitVec 32 := (encodeSlot stop 1 i).getD 0
/-- The reset state with core 0 changed. -/
def withCore (f : Core → Core) : State := State.reset.modCore 0 f
/-- The reset state with some registers of core 0, as the slots of a bundle read them. -/
def withX (xs : List (Nat × Word)) : State := withCore fun c =>
  let a := xs.foldl (fun (a : Arch) e => { a with x := a.x.setIfInBounds e.1 e.2 }) c.arch
  { c with arch := a, latch := a }
/-- The reset state with core 0 in privileged mode. -/
def inPriv (f : Core → Core := id) : State := withCore fun c =>
  f { c with arch := { c.arch with priv := true }, latch := { c.arch with priv := true } }
/-- A program of one NOP placed on rod 0, whose core 0 has the turn. -/
def atNop : State := State.reset.withFetchWord 32 0x87000000
/-- An image of a kernel, with loop records of PRO, KER, EPI, TRIP and STAGES (Tables 3-1, 3-3). -/
def loopImage (recs : List (Nat × Nat × Nat × Nat × Nat)) : Image :=
  let z := fun n => List.replicate n (0 : Byte)
  { handle := 0, key := 0, digest := 0, addr := 0, refs := 1, tick := 0,
    bytes := z 8 ++ toLe 4 128 ++ toLe 4 64 ++ z 6 ++ toLe 2 recs.length ++ toLe 4 192 ++ z 164 ++
      recs.flatMap fun r => toLe 4 r.1 ++ toLe 4 r.2.1 ++ toLe 4 r.2.2.1 ++ toLe 4 r.2.2.2.1 ++ toLe 1 r.2.2.2.2 ++ z 15 }
/-- Such a kernel on rod 0, whose core 0 runs it. -/
def inKernel (recs : List (Nat × Nat × Nat × Nat × Nat)) (f : Core → Core := id) : State :=
  let s := atNop.modCore 0 f
  { s with work := { s.work with images := [loopImage recs], kernels := [codeKernel] } }
/-- The entries of a page map from DRAM byte 0 on that maps each of `n` pages, from page 1,024 on, the first above the map itself, to the frame
of its own number. -/
def mapAll (n : Nat) : Mem := (List.range n).flatMap fun p =>
  (if p = 0 then [] else [(8192 + 8 * p, BitVec.ofNat 8 p)]) ++ [(8193 + 8 * p, 0x04), (8195 + 8 * p, 0xC0)]
/-- Such a map, in force, with bytes of memory above it. -/
def withPages (n : Nat) (s : State) (m : Mem := []) : State :=
  { s with dram := mapAll n ++ m, pm := { s.pm with inForce := (List.range n).map fun p => (1024 + p, BitVec.ofNat 32 (0xC0000400 + p)) } }
/-- Pages of memory at address 0 for the program's context, readable and writable. -/
def onMap (s : State) (n : Nat := 1) : State :=
  withPages n (s.modCtx 0 fun c => { c with
    ranges := c.ranges.setIfInBounds 0 { vbase := 0, vend := 65536 * n, iabase := 0x4000000, v := true, r := true, w := true } })
/-- The placed program, with core 0 changed, on such a page. -/
def mapped (f : Core → Core := id) : State := onMap (atNop.modCore 0 f)

/-- Bytes above the page map hold no access count. -/
theorem noCount_above {s : State} (h : s.regs.pmbase = 0) {a : Nat} (ha : 2 ^ 26 ≤ a) : s.NoCount a := by
  intro page hp
  have : ((0 : BitVec 64) >>> 16).toNat % 2 ^ 36 = 0 := by decide
  simp only [State.mapEntry, h, this]
  omega

/-- Are `k` pages from page 1,024 on each mapped to the frame of its own number, by a map at the beginning of memory? -/
def pagesPlain (s : State) (k : Nat) : Bool :=
  decide (k ≤ 256 ∧ s.regs.pmbase = 0 ∧ s.regs.domain = 0 ∧ s.errors.poison = [] ∧
    ((List.range 64).all fun r => (s.rod r).slice.lines.all fun l => !l.poison) = true ∧ ∀ j < k, s.wordInForce (1024 + j) = 0xC0000400 + j ∧ s.mapWord0 (1024 + j) = 0xC0000400 + j)

/-- Their bytes lie plainly. -/
theorem plain_above {s : State} (k ia n : Nat) (h : pagesPlain s k = true) (hlo : 2 ^ 26 ≤ ia) (hhi : ia + n ≤ 65536 * (1024 + k)) :
    s.PlainAt ia ia n := by
  obtain ⟨hk, hb, hd, hp, hs, hw⟩ := of_decide_eq_true h
  exact {
    mapped i hi := by
      have hpage : iaPage (ia + i) = 1024 + ((ia + i) / 65536 - 1024) := by unfold iaPage; omega
      have hword := hw ((ia + i) / 65536 - 1024) (by omega)
      rw [← hpage] at hword
      have hole : iaHole (ia + i) = false := by
        have low : (ia + i) / 2 ^ 39 % 512 = 0 := by omega
        unfold iaHole; rw [low]; rfl
      have hloc : s.iaLocal (ia + i) = true := by
        have low : (ia + i) / 2 ^ 48 % 16 = 0 := by omega
        unfold State.iaLocal iaPkg; rw [low, hd]; rfl
      have hin : s.pageWord (iaPage (ia + i)) ((ia + i) / 128) = 0xC0000400 + ((ia + i) / 65536 - 1024) := by
        simp [State.pageWord, hword.1, hword.2]
      have hv : wordV (0xC0000400 + ((ia + i) / 65536 - 1024)) = true := by simp only [wordV, decide_eq_true_eq]; omega
      have hr : wordWr (0xC0000400 + ((ia + i) / 65536 - 1024)) = true := by simp only [wordWr, decide_eq_true_eq]; omega
      have ha : (0xC0000400 + ((ia + i) / 65536 - 1024)) % 2 ^ 23 * 65536 + (ia + i) % 65536 = ia + i := by omega
      simp only [State.iaLoc, hole, hloc, hin, hv, hr, ha, Bool.not_true, Bool.and_false, Bool.or_self, if_true, Bool.false_eq_true,
        if_false]
    apart i hi page hq := by
      have : ((0 : BitVec 64) >>> 16).toNat % 2 ^ 36 = 0 := by decide
      simp only [State.mapEntry, hb, this]
      omega
    whole i hi := {
      dram := by simp [hp]
      slices r hr l hl _ := by
        have := List.all_eq_true.mp (List.all_eq_true.mp hs r (List.mem_range.mpr hr)) l hl
        simpa using this } }

/-! ### Witnesses: for each statement with hypotheses, a state and operands that meet them, for each of its clauses -/

theorem wit_scalar : State.reset.act < 256 ∧ State.reset.me.rdP 0 = true ∧ State.reset.me.rdP 1 = false ∧
    (withX [(2, 1)]).rx 2 ≠ 0 ∧ (withX [(2, 1)]).rx 3 = 0 := by decide +kernel

theorem wit_branch_taken : State.reset.rx 1 = State.reset.rx 2 ∧
    State.reset.leavesSection 0 (State.reset.pcOf + BitVec.ofInt 64 (4 * (-1024))) = false := by decide +kernel

theorem wit_branch_not_taken : ¬((withX [(1, 1)]).rx 1 = (withX [(1, 1)]).rx 2) := by decide +kernel

theorem wit_branch_leaves : (inKernel [(0, 16, 32, 2, 1)]).leavesSection 0
    ((inKernel [(0, 16, 32, 2, 1)]).pcOf + BitVec.ofInt 64 (4 * 1023)) = true := by decide +kernel

/-- A loop that ends at the bundle, with iterations left and with none. -/
theorem wit_loop_back : ∀ rem ∈ [1, 2], let a : Arch := { loops := Vector.replicate 4 {} |>.setIfInBounds 3 { isOpen := true, last := 64, rem := rem } }
    (a.loops.getD 3 {}).isOpen = true ∧ (a.loops.getD 3 {}).last = 64 ∧
      (∀ j < 4, 3 < j → ¬((a.loops.getD j {}).isOpen = true ∧ (a.loops.getD j {}).last = 64)) ∧ (a.loops.getD 3 {}).rem = rem := by
  decide +kernel

theorem wit_loop_zero : (inPriv).StaysInSection 0 ((inPriv).walkBody 0 1 0).2 true ∧ ((inPriv).rx 1).toNat = 0 :=
  ⟨.inl (by decide +kernel), by decide +kernel⟩

theorem wit_loop_open : (withX [(1, 0xFFFFFFFFFFFFFFFF)]).StaysInSection 0 0 false ∧ ((withX [(1, 0xFFFFFFFFFFFFFFFF)]).rx 1).toNat ≠ 0 := by
  refine ⟨.inr fun r hr => ?_, by decide +kernel⟩
  have : (withX [(1, 0xFFFFFFFFFFFFFFFF)]).recordOf 0 = none := by decide +kernel
  rw [this] at hr
  exact (Option.some_ne_none r hr.symm).elim

theorem wit_section_ker : let s := inKernel [(0, 16, 32, 2, 1)] (fun c => { c with unit := { c.unit with iters := 2 } })
    (s.core 0).arch.priv = false ∧ s.recordOf 0 = some ⟨0, 16, 32, 2, 1, false, 0⟩ ∧ (s.core 0).unit.sec = 0 ∧ (s.core 0).unit.iters ≠ 0 := by
  decide +kernel

theorem wit_section_epi : ∀ k ∈ [1, 2],
    let s := inKernel [(0, 16, 32, 2, 1)] (fun c => { c with unit := { c.unit with iters := k, sec := 1 } })
    (s.core 0).arch.priv = false ∧ s.recordOf 0 = some ⟨0, 16, 32, 2, 1, false, 0⟩ ∧ (s.core 0).unit.sec = 1 ∧ (s.core 0).unit.iters = k := by
  decide +kernel

theorem wit_section_no_iterations : let s := inKernel [(0, 16, 32, 2, 1)]
    (s.core 0).arch.priv = false ∧ s.recordOf 0 = some ⟨0, 16, 32, 2, 1, false, 0⟩ ∧ (s.core 0).unit.sec = 0 ∧ (s.core 0).unit.iters = 0 := by
  decide +kernel

theorem wit_halt_ends : ∀ i, State.reset.imageOf State.reset.act = some i → i.persistent = true := by
  have : State.reset.imageOf State.reset.act = none := by decide +kernel
  simp [this]

theorem wit_halt_persistent : (atNop.imageOf 0).map Image.persistent = some true := by decide +kernel

theorem wit_halt_last : ((inKernel [(0, 16, 32, 2, 1)]).imageOf 0) = some (loopImage [(0, 16, 32, 2, 1)]) ∧
    (loopImage [(0, 16, 32, 2, 1)]).persistent = false ∧ (loopImage [(0, 16, 32, 2, 1)]).loopCnt ≤ (inKernel [(0, 16, 32, 2, 1)]).me.unit.record + 1 := by
  decide +kernel

theorem wit_halt_next : let i := loopImage [(0, 16, 32, 2, 1), (0, 0, 32, 1, 1)]
    (inKernel [(0, 16, 32, 2, 1), (0, 0, 32, 1, 1)]).imageOf 0 = some i ∧ i.persistent = false ∧ 1 < i.loopCnt ∧
      (i.loopRec 1).triparg = false ∧ 0 < (i.loopRec 1).stages ∧ (i.loopRec 1).stages ≤ (i.loopRec 1).trip := by
  decide +kernel

/-- A record whose trip count is launch argument 0, 9, with stages to run, and HALT's bundle with nothing left or with a row. -/
theorem wit_halt_argument : let z := fun n => List.replicate n (0 : Byte)
    let i := { loopImage [(0, 16, 32, 2, 1)] with bytes := z 8 ++ toLe 4 128 ++ toLe 4 64 ++ z 6 ++ toLe 2 2 ++ toLe 4 192 ++ z 12 ++ [8, 0] ++ z 182 ++
      (toLe 4 0 ++ toLe 4 16 ++ toLe 4 32 ++ toLe 4 0 ++ [1, 1] ++ z 14) }
    let s := { inKernel [] (fun c => { c with spad := [(0, 9)] }) with work := { (inKernel []).work with images := [i] } }
    let r : MemOp := { id := 5, kind := .later (.vld 0 0 0) 0 0 0, cls := 0, loc := .table 0, n := 0 }
    s.imageOf 0 = some i ∧ i.persistent = false ∧ 1 < i.loopCnt ∧ (i.loopRec 1).triparg = true ∧ s.unitWaits 0 = false ∧
      leNat (s.me.spad.bytes 0 8) = 9 ∧ 8 ≤ i.argBytes ∧
      (s.modCore 0 fun c => { c with eng := { c.eng with memq := [r] } }).unitWaits 0 = true := by decide +kernel

theorem wit_trap_enters : (atNop.core 0).arch.priv = false := by decide +kernel

theorem wit_trap_ends : let s := atNop.modCore 0 fun c => { c with arch := { c.arch with priv := true } }
    s.asidOf 0 = some 0 ∧ (s.ctx 0).live = true ∧ (s.ctx 0).ending = false ∧ (s.core 0).arch.priv = true := by decide +kernel

theorem wit_fatal_ends : atNop.asidOf 0 = some 0 ∧ (atNop.ctx 0).live = true ∧ (atNop.ctx 0).ending = false := by decide +kernel

theorem wit_trap_and_brk : let u := atNop.followOn 0
    u.me.arch.priv = false ∧ u.me.dbg.attach = false ∧ u.me.seq.pendTraps.any (fun p => decide (p.1 < 6)) = false := by decide +kernel

theorem wit_brk_attached : let s := withCore fun c => { c with dbg := { c.dbg with attach := true } }
    (s.followOn 0).me.dbg.attach = true := by decide +kernel

/-- TRAP and BRK in privileged mode. -/
theorem wit_trap_privileged : let s := atNop.modCore 0 fun c => { c with arch := { c.arch with priv := true } }
    let u := s.followOn s.act
    u.me.arch.priv = true ∧ u.asidOf s.act = some 0 ∧ (u.ctx 0).live = true ∧ (u.ctx 0).ending = false ∧ u.me.dbg.attach = false := by
  decide +kernel

/-- The return from a MACHINE_CHECK that was fatal. -/
theorem wit_rfe_fatal : let s := atNop.modCore 0 fun c => { c with latch := { c.latch with
      priv := true, ctl := { c.latch.ctl with tcause := 17, tdetail := 0x8000000000000000#64 } } }
    s.me.latch.priv = true ∧ s.me.latch.ctl.tcause.toNat % 16 = 1 ∧ s.me.latch.ctl.tdetail.msb = true ∧ s.asidOf s.act = some 0 ∧
      (s.ctx 0).live = true ∧ (s.ctx 0).ending = false := by decide +kernel

theorem wit_rfe : (inPriv).me.latch.priv = true ∧ (inPriv).me.latch.ctl.tcause.toNat % 16 ≠ 1 := by decide +kernel

theorem wit_priv_slots : State.reset.me.latch.priv = false ∧ State.reset.me.arch.priv = false ∧ 0x100 ≤ (0x100#9).toNat := by decide +kernel

theorem wit_sleep : (State.reset.rx 1).toNat ≤ State.reset.tick % 2 ^ 64 ∧
    (withX [(1, 1)]).tick % 2 ^ 64 < ((withX [(1, 1)]).rx 1).toNat := by decide +kernel

theorem wit_waitw : (inPriv).me.latch.priv = true ∧ ((inPriv).rx 1).toNat ≤ (inPriv).tick % 2 ^ 64 ∧ (inPriv).me.seq.wakeFlag = false := by decide +kernel

theorem wit_waitw_waits : let s := inPriv fun c => { c with latch := { c.latch with x := c.latch.x.setIfInBounds 1 1 } }
    s.me.latch.priv = true ∧ s.me.seq.wakeFlag = false ∧ s.tick % 2 ^ 64 < (s.rx 1).toNat ∧ s.me.seq.waitw = none := by decide +kernel

theorem wit_yield : ((atNop.followOn 0).kernelOf 0).isSome = true := by decide +kernel

/-- Both ends of the unprivileged indices and of the privileged ones. -/
theorem wit_control : (0x0FF#9).toNat < 0x100 ∧ (inPriv).me.latch.priv = true ∧ (0x104#9).toNat = 0x104 + 0 ∧ (0x107#9).toNat = 0x104 + 3 ∧
    (∀ n ∈ [(0x011 : BitVec 9), 0x0FF, 0x109, 0x1FF], n.toNat ∉ [0x010, 0x020, 0x028, 0x030, 0x031, 0x032, 0x040, 0x041, 0x044, 0x048, 0x049,
      0x04A, 0x050, 0x058, 0x059, 0x05A, 0x05C, 0x060, 0x068, 0x070, 0x074, 0x100, 0x101, 0x102, 0x103, 0x104, 0x105, 0x106, 0x107, 0x108,
      0x140, 0x144, 0x145, 0x146, 0x150, 0x151, 0x152, 0x153, 0x154, 0x160, 0x161, 0x162, 0x163, 0x164, 0x168, 0x169, 0x16A, 0x16B, 0x16C,
      0x170, 0x171, 0x172, 0x173, 0x180, 0x181, 0x190, 0x191, 0x1A0, 0x1A1, 0x1B0, 0x1F0]) ∧
    ∀ e ∈ State.reset.me.latch.pend, ∀ f, e.val ≠ .flags f false := by
  refine ⟨by decide +kernel, by decide +kernel, by decide +kernel, by decide +kernel, by decide +kernel, fun e he => ?_⟩
  rw [show State.reset.me.latch.pend = [] by decide +kernel] at he
  cases he

theorem wit_memory : Mem.wf [(0, 1), (5, 255)] = true ∧ Mem.wf [] = true := by decide

theorem wit_access_faults : (State.reset.ra 0 + BitVec.ofInt 64 (1 * 8)).toNat % 8 = 0 ∧ ((withCore fun c => { c with latch := { c.latch with a := c.latch.a.setIfInBounds 0 7 } }).ra 0).toNat % 8 ≠ 0 ∧
    State.reset.resolve 0 8 8 true false true = none ∧ State.reset.resolve 0 8 8 false true false = none := by decide +kernel

theorem wit_load_and_store : mapped.ldstLoc 8 false 0 255 = some (.dram 0x40007F8 0x40007F8 false) ∧
    mapped.ldstLoc 8 true 0 255 = some (.dram 0x40007F8 0x40007F8 false) ∧ mapped.errors.planted = [] ∧
    mapped.locPoisoned (.dram 0x40007F8 0x40007F8 false) = false ∧ mapped.dram.wf = true := by decide +kernel

theorem wit_quiet : mapped.Quiet := ⟨by decide +kernel, by decide +kernel, by decide +kernel⟩

theorem wit_load_keeps : mapped.NoCount (2 ^ 26) := noCount_above (by decide +kernel) (by decide)

theorem wit_atomic : (mapped.ra 0).toNat % 8 = 0 ∧ mapped.resolve 0 0 8 true true false = some (.dram 0x4000000 0x4000000 false) ∧
    State.reset.resolve 0 0 4 true true false = none ∧ (1#2).getLsbD 1 = false := by decide +kernel

/-- The accesses of the witness of returns: a load, an atomic and a store, each performed and ripe. -/
theorem wit_returns : ∀ k ∈ [MemKind.load true, .atomic 7 0, .store],
    let o : MemOp := { id := 5, kind := k, cls := 0, loc := .dram 0 0 false, n := 4, data := 0xFFFFFFFF, performed := true }
    let s := withCore fun c => { c with eng := { c.eng with memq := [o] } }
    s.memOp? 0 5 = some o ∧ o.performed = true ∧ o.ripe s 0 = true ∧ o.n ∈ [4, 8] ∧ o.data.toNat < 2 ^ (8 * o.n) := by decide +kernel

/-- A load, a store and an atomic of 8 bytes, whose turn in the order has come. -/
def turnOp (k : MemKind) : MemOp := { id := 5, kind := k, cls := 0, loc := .dram 0x4000000 0x4000000 false, n := 8, data := 1 }
/-- The program whose core waits for it. -/
def atTurn (k : MemKind) : State := mapped fun c => { c with eng := { c.eng with memq := [turnOp k] } }

theorem wit_performs (k : MemKind) (hk : k ∈ [MemKind.load true, .store, .atomic 7 0]) : (atTurn k).Performs 0 5 (turnOp k) := by
  have : ∀ k ∈ [MemKind.load true, .store, .atomic 7 0], (atTurn k).memOp? 0 5 = some (turnOp k) ∧
      (∀ e ∈ ((atTurn k).core 0).eng.memq, e.id ≠ 5 → e.performed = true) ∧ (turnOp k).performed = false ∧
      (turnOp k).free ((atTurn k).core 0) = true ∧ (atTurn k).fencesMet 0 5 = true ∧ (turnOp k).due ≤ (atTurn k).tick ∧
      ((atTurn k).errors.retiring = [] ∧ (atTurn k).errors.planted = [] ∧ (atTurn k).locPoisoned (turnOp k).loc = false) ∧
      (turnOp k).mc = [] := by decide +kernel
  obtain ⟨h1, h2, h3, h4, h5, h6, h7, h8⟩ := this k hk
  exact ⟨h1, h2, h3, h4, h5, .inr h6, h7, h8⟩

theorem wit_performs_ripe : (atTurn (.load true)).dram.wf = true ∧ (turnOp (.load true)).ripe (atTurn (.load true)) 0 = true ∧
    (turnOp .store).loc.Writable ∧ ∀ a, 2 ^ 26 ≤ a → (atTurn .store).NoCount a :=
  ⟨by decide +kernel, by decide +kernel, .inl ⟨_, _, _, rfl⟩, fun _ => noCount_above (by decide +kernel)⟩

/-- The last row and the last scale block of the scratchpad, and the first beyond it. -/
theorem wit_rows : let s := withCore fun c => { c with latch := { c.latch with a := (c.latch.a.setIfInBounds 0 3145472).setIfInBounds 1 3145712 } }
    s.me.spad.wf = true ∧ (s.ra 0).toNat % 256 = 0 ∧ (s.ra 0).toNat + 256 = s.me.spadSize ∧
      ((s.ra 0) + BitVec.ofInt 64 (7 * 32)).toNat + 32 = s.me.spadSize ∧ ¬((s.ra 1).toNat + 32 ≤ s.me.spadSize) := by decide +kernel

/-- A row's turn with nothing before it, and ones that wait behind an earlier row. -/
theorem wit_row_turn :
    let r : MemOp := { id := 5, kind := .later (.vld 0 0 0) 0 0 0, cls := 0, loc := .table 0, n := 0 }
    let s := withCore fun c => { c with uid := 6, seq := { c.seq with fence := [(.core, 6)] }, eng := { c.eng with
      memq := [{ r with waits := [1] }] } }
    (∀ w, ((State.reset.rowMeets w).rowTurn 0 (State.reset.rowMeets w).me.uid w = true ∧ State.reset.act = 0 ∧
      ((State.reset.rowMeets w).me.spad.wf = true))) ∧
    ∀ w, (s.rowMeets w).rowTurn 0 (s.rowMeets w).me.uid w = false := by decide +kernel

theorem wit_fence : ∀ o ∈ State.reset.me.eng.memq, o.performed = true := by decide +kernel

theorem wit_klaunch_asks : ∀ k ∈ State.reset.me.seq.klaunch, k.slot ≠ State.reset.slot := by decide +kernel

/-- A KLAUNCH that has not been answered, misaligned, and what answers it. -/
theorem wit_klaunch_unanswered : let k : KLaunchWait := { slot := 0, va := 1, till := 0, last := 28000 }
    let s := withCore fun c => { c with seq := { c.seq with klaunch := [k] } }
    s.me.seq.klaunch.find? (fun k => k.slot == s.slot) = some k ∧ k.result = none ∧
      (match execKlaunchAccept s.act s with
        | .next u => decide (u.act = s.act ∧ u.slot = s.slot ∧
            u.me.seq.klaunch.find? (fun k => k.slot == s.slot) = some { k with result := some 25 })
        | _ => false) = true := by decide +kernel

/-- And one that is not to be answered yet. -/
theorem wit_klaunch_waits : let k : KLaunchWait := { slot := 0, va := 1, till := 9, last := 28000 }
    let s := withCore fun c => { c with seq := { c.seq with klaunch := [k] } }
    (match execKlaunchAccept s.act s with
      | .next u => decide (u.me.seq.klaunch.find? (fun k => k.slot == s.slot) = some k)
      | _ => false) = true := by decide +kernel

theorem wit_klaunch_answered : let k : KLaunchWait := { slot := 0, va := 64, till := 0, last := 28000, result := some 9 }
    let s := withCore fun c => { c with seq := { c.seq with klaunch := [k] } }
    s.me.seq.klaunch.find? (fun k => k.slot == s.slot) = some k ∧ k.result = some 9 := by decide +kernel

/-- The reset state with tiles 0, 1, ... configured, with all rows, as some types; cursor c0 names their last row, 63. -/
def withTiles (ts : List ElemTy) : State := withCore fun c =>
  let a := ts.zipIdx.foldl (fun (a : Arch) e => { a with tiles := a.tiles.setIfInBounds e.2 { conf := true, ty := e.1 } }) c.arch
  let a := { a with c := a.c.setIfInBounds 0 63 }
  { c with arch := a, latch := a }

/-- Operands of one type, and of two. -/
theorem wit_rows_of_type : ∀ ty ∈ [ElemTy.int8, .uint8, .int16, .int32, .fp16, .bf16, .fp32],
    let s := withTiles [ty, ty, ty]
    ((s.rv 0).tile.conf ∧ isArithTy (s.rv 0).tile.ty ∧ (s.rv 4).tile.isTy ty ∧ (s.rv 8).tile.isTy ty) ∧
      (s.rv 0).idx = 63 ∧ (s.rv 0).idx < (s.rv 0).tile.rowCount ∧ s.me.noReconf 0 = true := by decide +kernel

theorem wit_rows_mismatch : let s := withTiles [.fp32, .int8]
    ¬(s.rv 4).tile.isTy (s.rv 0).tile.ty ∧ (s.rv 0).tile.conf = true ∧ (s.rv 8).tile.conf = false := by decide +kernel

theorem wit_integer_elements : ∀ ty ∈ [ElemTy.int8, .uint8, .int16, .int32], isIntTy ty = true ∧ 2 ^ widthOf ty - 1 < 2 ^ widthOf ty := by
  decide +kernel

/-- Zero times infinity, a product of numbers and one with an infinity. -/
theorem wit_float_elements : fmtOf .fp32 = some FFmt.fp32 ∧ (FFmt.fp32.decode 0x7F800000).isInf = true ∧ (FFmt.fp32.decode 0).isZero = true ∧
    (∀ a ∈ [0x7FC00000, 0x3F800000, 0xFF800000], let x := FFmt.fp32.decode a
      let y := FFmt.fp32.decode 0x40000000
      ¬((x.isInf = true ∧ y.isZero = true) ∨ (x.isZero = true ∧ y.isInf = true))) ∧
    (∀ x y : FVal, (x.isNan ∨ y.isNan → exactProduct x y = .nan) ∧
      (∀ s n t k, x = .fin s n → y = .fin t k → exactProduct x y = .fin (s != t) (n * k)) ∧
      (x.isNan = false → y.isNan = false → x.isInf ∨ y.isInf → exactProduct x y = .inf (x.neg != y.neg))) := by
  refine ⟨rfl, by decide +kernel, by decide +kernel, by decide +kernel, fun x y => ⟨fun h => ?_, ?_, fun hx hy _ => ?_⟩⟩
  · cases x <;> cases y <;> simp_all [exactProduct, FVal.isNan]
  · rintro s n t k rfl rfl; rfl
  · cases x <;> cases y <;> simp_all [exactProduct, FVal.isNan, FVal.isInf]

theorem wit_integral_elements : FFmt.fp32.decode 0x7FC00000 = .nan ∧ FFmt.fp32.decode 0xFF800000 = .inf true ∧
    FFmt.fp32.decode 0xC0200000 = .fin true (5 * 2 ^ 148) ∧ 0xFF800000 < 2 ^ FFmt.fp32.width := by decide +kernel

theorem wit_convert : let s := withTiles [.fp32, .bf16]
    (s.rv 0).tile.isTy .fp32 ∧ (s.rv 4).tile.conf ∧ cvtPair (s.rv 4).tile.ty .fp32 ∧ dbOf (s.rv 4).tile.ty = none ∧ dbOf .fp32 = none := by
  decide +kernel

theorem wit_convert_fate : let s := withTiles [.fp32, .bf16]
    ¬((s.rv 0).tile.isTy .int8 ∧ (s.rv 4).tile.conf ∧ cvtPair (s.rv 4).tile.ty .int8) := by decide +kernel

theorem wit_quantise : ∀ db ∈ [DbTy.db8, .db4], let s := withTiles [dbElemTy db, .fp16]
    (s.rv 0).tile.isTy (dbElemTy db) ∧ (s.rv 4).tile.conf ∧ fmtOf (s.rv 4).tile.ty = some FFmt.fp16 ∧
      fmtOf (s.rv 0).tile.ty = none ∧ ¬((s.rv 4).tile.isTy (dbElemTy db) ∧ (s.rv 0).tile.conf) := by decide +kernel

theorem wit_round : let s := withTiles [.fp32, .fp32, .int8, .int8, .db8]
    ((s.rv 4).tile.conf ∧ (s.rv 0).tile.isTy (s.rv 4).tile.ty ∧ fmtOf (s.rv 4).tile.ty = some FFmt.fp32) ∧
      ((s.rv 12).tile.conf ∧ (s.rv 8).tile.isTy (s.rv 12).tile.ty ∧ isIntTy (s.rv 12).tile.ty) ∧
      ¬((s.rv 16).tile.conf ∧ (s.rv 0).tile.isTy (s.rv 16).tile.ty) ∧ fmtOf (s.rv 8).tile.ty = none ∧ 0 < countOf .fp32 / 32 := by
  decide +kernel

/-- Exponent pairs of the latch that VMAXEXP of row 63 of a BF16 tile leaves. -/
theorem wit_exponents_stay : ∀ k < countOf .bf16 / 32, (0 : Nat) ≠ ((segOf (countOf .bf16) (countOf (dbElemTy .db8)) 63 0).dst + 32 * k) / 32 := by
  decide +kernel

theorem wit_reduce : ∀ p ∈ [(ElemTy.int32, ElemTy.int8), (.int16, .int16), (.fp32, .bf16)], let s := withTiles [p.1, p.2]
    (s.rv 4).tile.conf ∧ (s.rv 0).tile.conf ∧ isArithTy (s.rv 4).tile.ty ∧ ((s.rv 0).tile.ty = (s.rv 4).tile.ty ∨
      (isIntTy (s.rv 4).tile.ty ∧ (s.rv 0).tile.ty = .int32) ∨ (isFloatTy (s.rv 4).tile.ty ∧ (s.rv 0).tile.ty = .fp32)) := by
  decide +kernel

theorem wit_extremes : let s := withTiles [.bf16, .bf16, .int8, .int8]
    ((s.rv 4).tile.conf ∧ (s.rv 0).tile.isTy (s.rv 4).tile.ty ∧ fmtOf (s.rv 4).tile.ty = some FFmt.bf16) ∧
      ((List.range 128).map (rowElem .bf16 (s.rv 4).row)).any (fun e => (FFmt.bf16.decode e).isNan) = false ∧
      (FFmt.bf16.decode 0x7FC0).isNan = true ∧
      ((s.rv 12).tile.conf ∧ (s.rv 8).tile.isTy (s.rv 12).tile.ty ∧ isIntTy (s.rv 12).tile.ty) ∧ ¬(s.rv 8).tile.isTy (s.rv 4).tile.ty := by
  decide +kernel

theorem wit_extreme_nan : let s := withCore fun c => { c with latch := { c.latch with
      tiles := c.latch.tiles.setIfInBounds 1 { conf := true, ty := .bf16, rows := Vector.replicate 64 0x7FC0 } } }
    (s.rv 4).tile.conf = true ∧ ((List.range 128).map (rowElem .bf16 (s.rv 4).row)).any (fun e => (FFmt.bf16.decode e).isNan) = true := by
  decide +kernel

theorem wit_permute : let s := withTiles [.fp32, .fp32, .int32, .fp16]
    ((s.rv 4).tile.conf ∧ (s.rv 0).tile.isTy (s.rv 4).tile.ty ∧ (s.rv 8).tile.conf ∧ isIntTy (s.rv 8).tile.ty ∧
      countOf (s.rv 4).tile.ty ≤ countOf (s.rv 8).tile.ty) ∧ ¬isIntTy (s.rv 12).tile.ty ∧
      fmtOf (s.rv 0).tile.ty = some FFmt.fp32 ∧ (s.rv 16).tile.conf = false ∧ ¬countOf (s.rv 12).tile.ty ≤ countOf (s.rv 0).tile.ty := by
  decide +kernel

theorem wit_tcfg_keep : let s := withTiles [.fp32]
    let old := s.me.rdTile 0 0 0 64
    (1#1 = 1 ∧ old.conf ∧ old.nrows = (63#6).toNat + 1 ∧ widthOf old.ty = widthOf .int32) ∧
      ¬(old.nrows = (0#6).toNat + 1) ∧ (1#4 : BitVec 4) ≠ 0 := by decide +kernel

theorem wit_functions : let s := withTiles [.fp32, .fp32, .bf16]
    ((s.rv 4).tile.isTy .fp32 ∧ (s.rv 0).tile.isTy .fp32) ∧ ¬(s.rv 8).tile.isTy .fp32 := by decide +kernel

/-- A row of zeros, each an input that the lists name. -/
theorem wit_function_inputs : ∀ j < 64, rowElem .fp32 (0 : Row) j = 0 := by decide +kernel

theorem wit_ranking : 1 ∈ topK 1 [.nan, .fin false 0] ∧ 0 ∉ topK 1 [.nan, .fin false 0] := by decide +kernel

/-- Weights with a NaN, of an infinity, and of 1.0 beside an infinity, whose exponentials are 1 and 0. -/
theorem wit_softmax : FFmt.fp32.decode 0x7FC00000 = .nan ∧ FFmt.fp32.decode 0x7F800000 = .inf false ∧
    (let v := [(0, 0x3F800000), (3, 0xFF800000)]
     (∀ e ∈ v, FFmt.fp32.decode e.2 ≠ .nan ∧ FFmt.fp32.decode e.2 ≠ .inf false) ∧ (∃ e ∈ v, FFmt.fp32.decode e.2 ≠ .inf true) ∧
     (v.map fun e => FFmt.fp32.decode (fnExpt (BitVec.ofNat 32 (elSub .fp32 e.2 0x3F800000).1)).1) = [.fin false (2 ^ 149), .fin false 0] ∧
     FFmt.fp32.decode (elAdd .fp32 0x3F800000 0).1 = .fin false (2 ^ 149)) := by decide +kernel

/-- A routing row's tile, a BF16 one and an INT16 one, as the gate functions take them, and others. -/
theorem wit_gate_functions : let s := withTiles [.int32, .bf16, .int16]
    ((s.rv 4).tile.isTy .bf16 ∧ (s.rv 0).tile.isRoute) ∧ (s.me.rdHist 0 0 8).tile.isTy .int16 ∧ ¬(s.rv 4).tile.isRoute ∧
      ¬(s.me.rdHist 0 0 4).tile.isTy .int16 := by decide +kernel

theorem wit_chip_barrier : ∀ o ∈ State.reset.me.arch.ops, o.id ≠ State.reset.me.uid := by decide +kernel

/-- A token register for each state of an operation, and the ones that stand for none. -/
theorem wit_tokens : ∀ st ∈ [OpState.unpromised, .promised, .complete, .refused],
    let a : Arch := { ops := [{ id := 3, cls := .other, st := st }] }
    a.tokState { ops := [3] } = st ∧ a.tokOps { ops := [3] } = [{ id := 3, cls := .other, st := st }] ∧
      a.tokState {} = .complete ∧ a.tokOps {} = [] ∧ a.tokState { refused := true } = .refused := by decide +kernel

/-- A byte barrier that stands at the end of its range, or one below it, as 0 or 1 is added, and the lowest it can stand at. -/
theorem wit_byte_barrier : (2 ^ 48 - 1 : Int) + ((0#64).toNat % 2 ^ 48 : Nat) ≤ 2 ^ 48 - 1 ∧
    (2 ^ 48 - 1 : Int) < (2 ^ 48 - 1 : Int) + ((1#64).toNat % 2 ^ 48 : Nat) ∧ (-2 ^ 47 : Int) ≤ -2 ^ 47 + ((0#64).toNat % 2 ^ 48 : Nat) := by
  decide +kernel

/-- A program whose context holds ring 255, of two slots of 64 bytes, with `n` tickets taken. -/
def withRing (n : BitVec 32) (f : Ring → Ring := id) : State := atNop.putRing 255 (some (f
  { asid := 0, slice := 0, base := 0, slotlog := 6, log2n := 1, ticket := n, full := [false, false] }))

theorem wit_no_ring : ((State.reset.pump 0).catchUp 0).ringOf 0 255 = none := by decide +kernel

theorem wit_ring : let u := ((withRing 1).pump 0).catchUp 0
    (u.ringOf 0 255).map Ring.hasTicket = some true ∧ ((withRing 1).pump 0).ringTurn 0 (withRing 1).me.uid = true ∧
      ((((withRing 2).pump 0).catchUp 0).ringOf 0 255).map Ring.hasTicket = some false := by decide +kernel

theorem wit_rfill : let u := ((withRing 1).pump 0).catchUp 0
    let r : Ring := { asid := 0, slice := 0, base := 0, slotlog := 6, log2n := 1, ticket := 1, full := [false, false] }
    u.ringOf 0 255 = some r ∧ (((u.rx 0).truncate 32 : BitVec 32) - r.head).toNat < (r.ticket - r.head).toNat ∧
      r.full.getD (((u.rx 0).truncate 32 : BitVec 32).toNat % r.size) false = false ∧ (u.ra 0).toNat % 64 = 0 ∧
      (u.ra 0).toNat + 2 ^ r.slotlog ≤ u.me.spadSize ∧ r.slice < 64 ∧ (u.rod r.slice).slice.staging.wf = true := by decide +kernel

theorem wit_rfill_refused : let u := ((withRing 0).pump 0).catchUp 0
    let r : Ring := { asid := 0, slice := 0, base := 0, slotlog := 6, log2n := 1, ticket := 0, full := [false, false] }
    u.ringOf 0 255 = some r ∧ ¬(((u.rx 0).truncate 32 : BitVec 32) - r.head).toNat < (r.ticket - r.head).toNat := by decide +kernel

/-- A program whose context has room for one entry, with the die's queue empty and with the one entry in it. -/
def withQueue (q : List PqEntry) : State := (atNop.modCtx 0 fun c => { c with pqQuota := 1 }).modDie 0 fun d => { d with pq := q }

theorem wit_queue_turn : ∀ q ∈ [[], [(⟨5, 6, 0⟩ : PqEntry)]], ((withQueue q).pump 0).ringTurn 0 (withQueue q).me.uid = true := by decide +kernel

theorem wit_queue_room : let u := ((withQueue []).pump 0).catchUp 0
    ¬((u.rx 0).truncate 32 = BitVec.allOnes 32 ∨ (u.ctx ((u.asidOf 0).getD 0)).pqQuota ≤ (u.pqMine 0).length ∨ 65536 ≤ (u.die 0).pq.length) ∧
      u.pqMine 0 = [] := by decide +kernel

theorem wit_queue_full : let u := ((withQueue [⟨5, 6, 0⟩]).pump 0).catchUp 0
    (u.ctx ((u.asidOf 0).getD 0)).pqQuota ≤ (u.pqMine 0).length ∧ u.pqMine 0 ≠ [] := by decide +kernel

/-- A program whose context holds end 15 of channel 0 to its own package, or end 16 to another. -/
def withChan (i : Nat) (f : Chan → Chan := id) : State := atNop.modChan i fun c => f { c with en := true, asid := 0 }

theorem wit_channel : let s := (withChan 15).modCore 0 fun c => { c with latch := { c.latch with x := c.latch.x.setIfInBounds 1 15 } }
    routeChan (s.rx 1) = 15 ∧ s.bound 0 15 = true ∧ (s.chan 15).queue = [] ∧ s.ownChan 15 = true ∧
      s.bound 0 16 = false ∧ s.ownChan 16 = false := by decide +kernel

/-- An end to another package, with an earlier send of the core to the channel and without one. -/
theorem wit_channel_outside : let s := (withChan 16).modCore 0 fun c => { c with uid := 6, latch := { c.latch with x := c.latch.x.setIfInBounds 1 16 } }
    routeChan (s.rx 1) = 16 ∧ s.bound 0 16 = true ∧ s.ownChan 16 = false ∧ s.me.eng.eng = [] ∧ routeChan 16 = 16 := by decide +kernel

theorem wit_channel_queue : let m : Message := ⟨.data, .int8, 64, 0, 0, List.replicate 64 1⟩
    let s := withChan 0 fun c => { c with queue := [(m, false)] }
    s.bound 0 (routeChan (s.rx 1)) = true ∧ (s.chan 0).queue = (m, false) :: (s.chan 0).queue.tail := by decide +kernel

/-- A stage entry of the program's kernel. -/
def stageEntry : LaceEntry :=
  { handle := 1, src := (0, .int8, 64), ity := .int8, ibytes := 64, oty := .int8, obytes := 64, parent := none, depth := 1, priv := false,
    attach := 0, owner := 0, kernel := 1, join := 7, srcLast := 0 }
/-- The program's kernel as the stage of entry 3. -/
def withStage (f : LaceEntry → LaceEntry := id) : State :=
  let s := atNop.modKernel 1 fun k => { k with stage := some 3 }
  { s with work := { s.work with lace := s.work.lace.setIfInBounds 3 (some (f stageEntry)) } }

theorem wit_stage : (withStage).stageAt 0 = some (3, stageEntry) ∧ State.reset.stageAt 0 = none := by decide +kernel

theorem wit_train : let one : Word := 0x105
    let e : PredSlot × PredSlot := (⟨5, 3⟩, ⟨6, 1⟩)
    one.getLsbD 8 = true ∧ one.getLsbD 24 = false ∧ e.1.conf ≠ 0 ∧ e.1.expert = one.extractLsb' 0 8 ∧ e.2.conf ≠ 0 ∧
      e.2.expert ≠ one.extractLsb' 0 8 ∧ State.reset.me.pred.getD 0 ({}, {}) = ({}, {}) ∧ State.reset.me.predBad = [] ∧
      (withCore fun c => { c with predBad := [0] }).me.predBad.contains (predIdx 0 0).toNat = true := by decide +kernel

/-- A tentative tile. -/
def tentTile (ty : ElemTy) : Tile := { conf := true, ty := ty, tent := true }
/-- Tiles for the resolve unit: an FP32 one, a tentative one and a routing tile. -/
def withSpec : State := withCore fun c =>
  let ts := c.arch.tiles.setIfInBounds 0 { conf := true, ty := .fp32 }
  let ts := (ts.setIfInBounds 1 (tentTile .fp32)).setIfInBounds 2 { conf := true, ty := .int32 }
  { c with arch := { c.arch with tiles := ts }, latch := { c.latch with tiles := ts } }

theorem wit_resolve : let dst := withSpec.specTile 0
    let tent := withSpec.specTile 1
    (tent.tent ∧ dst.isTy .fp32 ∧ ¬dst.tent ∧ (0 : BitVec 4) ≠ 1 ∧ (withSpec.specTile (vTile 8)).isTy .int32) ∧ tent.isTy .fp32 ∧
      ¬(withSpec.specTile 2).tent := by decide +kernel

/-- Tile 1 with a valid tag of token 5 on row 7, and a routing row 5 that names its expert and generation at entry 1. -/
def withNamed : State := withSpec.modCore 0 fun c =>
  let tent := { tentTile .fp32 with tags := Vector.replicate 64 ({} : Tag) |>.setIfInBounds 7 { token := 5, expert := 3, gen := 2, valid := true } }
  let route : Tile := { conf := true, ty := .int32, rows := Vector.replicate 64 0 |>.setIfInBounds 5 (BitVec.ofNat 2048 (515 * 2 ^ 32)) }
  { c with latch := { c.latch with tiles := (c.latch.tiles.setIfInBounds 1 tent).setIfInBounds 2 route } }

theorem wit_resolve_row : let dst := withNamed.specTile 0
    let tent := withNamed.specTile 1
    let route := withNamed.specTile (vTile 8)
    let tag := fun m => tent.tags.getD m {}
    let names := fun j m => rowElem .int32 (route.rows.getD 5 0) j < 2 ^ 31 ∧ rowElem .int32 (route.rows.getD 5 0) j % 256 = (tag m).expert.toNat ∧
      rowElem .int32 (route.rows.getD 5 0) j / 256 % 256 = (tag m).gen.toNat
    tent.tent ∧ dst.isTy .fp32 ∧ ¬dst.tent ∧ route.isTy .int32 ∧ 5 < min dst.rowCount 64 ∧ 5 < route.rowCount ∧ (tag 7).valid = true ∧
      (tag 7).token.toNat = 64 * (withNamed.me.rdC (vCur 8)).toNat + 5 ∧ (∀ k < 64, (tag k).valid = true → k = 7) ∧ names 1 7 ∧ ¬names 0 7 ∧
      withNamed.me.eng.resolve.owner = none ∧ tent.isTy .fp32 = true := by decide +kernel

/-- A commit of sums in INT32. -/
theorem wit_commit_int : let s := withSpec.modCore 0 fun c => { c with latch := { c.latch with
      tiles := (c.latch.tiles.setIfInBounds 0 { conf := true, ty := .int32 }).setIfInBounds 1 (tentTile .int32) } }
    (s.specTile 1).tent ∧ ¬(s.specTile 0).tent ∧ (s.specTile 0).isTy .int32 ∧ (s.specTile 1).isTy .int32 := by decide +kernel

theorem wit_rlist : State.reset.me.eng.resolve.missing = [] ∧
    (withCore fun c => { c with eng := { c.eng with resolve := { missing := [{ expert := 5 }] } } }).me.eng.resolve.missing = [{ expert := 5 }] := by
  decide +kernel

/-- The reset state with rod `r` changed, at a tick. -/
def withRod (r : Nat) (f : Rod → Rod) (tick : Nat := 0) : State := { State.reset.modRod r f with now := 360 * tick }
/-- The reset state with panel `p` changed, at a tick. -/
def withPanel (p : Nat) (f : Panel → Panel) (tick : Nat := 0) : State := { State.reset.modPanel p f with now := 360 * tick }

theorem wit_filler : atNop.isTurn 0 = true ∧ (atNop.core 0).acct.acs.en = false := by decide +kernel

theorem wit_window_end : ∀ r ∈ [0, 63], 64 ≤ ((withRod r fun o => { o with clk := { o.clk with wcyc := 64 } }).rod r).clk.wcyc := by decide +kernel

theorem wit_flush : let s := withCore fun c => { c with acct := { c.acct with held := 2 ^ 47 } }
    (s.core 0).flushDue = true := by decide +kernel

/-- The program with a stream of 16 records at 0x2000 of its memory, TAIL `tail`, and its account area at the first page's beginning. -/
def withStream (f : Acs → Acs := id) : State :=
  let s := onMap (atNop.modCore 0 fun c => { c with acct := { c.acct with held := 2 ^ 47, acs := f { base := 0x2000, log2n := 4 } } })
  s.modCtx 0 fun c => { c with acctIa := 0x4000000 }

theorem wit_flush_stored : ((withStream).core 0).flushDue = true ∧ ((withStream).core 0).acct.acs.en = false ∧
    (withStream).acctIa ((withStream).asidOf 0) = some 0x4000000 ∧ (withStream).dram.wf = true ∧ (withStream).Calm ∧
    (withStream).PlainAt 0x4000000 0x4000000 0x98 :=
  ⟨by decide +kernel, by decide +kernel, by decide +kernel, by decide +kernel, ⟨by decide +kernel, by decide +kernel, by decide +kernel⟩,
    plain_above 1 _ _ (by decide +kernel) (by decide) (by decide)⟩

/-- A run that its ring has room for, and one for which the ring is full. -/
theorem wit_run_close : ∀ tail ∈ [0, 15, 16], let s := withStream fun a => { a with en := true, runCount := 1, tail := BitVec.ofNat 32 tail }
    let a := (s.core 0).acct.acs
    a.en = true ∧ a.err = false ∧ a.runCount ≠ 0 ∧ a.gap = 0 ∧ s.dram.wf = true ∧
      s.streamIa 0 (a.base.toNat + 64 + 16 * (a.tail.toNat % 2 ^ a.log2n.toNat)) 16 = some (0x4002040 + 16 * (tail % 16)) ∧
      s.streamIa 0 a.base.toNat 8 = some 0x4002000 ∧ s.streamIa 0 (a.base.toNat + 8) 8 = some (0x4002000 + 8) ∧
      (a.tail.toNat + 2 ^ 32 - s.streamHead 0) % 2 ^ 32 = tail := by decide +kernel

theorem wit_run_close_plain : ∀ tail ∈ [0, 15, 16], let s := withStream fun a => { a with en := true, runCount := 1, tail := BitVec.ofNat 32 tail }
    s.Calm ∧ s.PlainAt 0x4002000 0x4002000 24 ∧ s.PlainAt 0x4002000 0x4002000 16 ∧ ∀ k < 16,
      s.PlainAt (0x4002040 + 16 * k) (0x4002040 + 16 * k) 16 ∧ 0x4002000 + 16 ≤ 0x4002040 + 16 * k := by
  intro tail ht
  have h : ∀ tail ∈ [0, 15, 16], let s := withStream fun a => { a with en := true, runCount := 1, tail := BitVec.ofNat 32 tail }
      pagesPlain s 1 = true ∧ s.errors.planted = [] ∧ s.errors.errinj.getLsbD 63 = false ∧ s.errors.retiring = [] := by decide +kernel
  obtain ⟨hp, h1, h2, h3⟩ := h tail ht
  exact ⟨⟨h1, h2, h3⟩, plain_above 1 _ _ hp (by decide) (by decide), plain_above 1 _ _ hp (by decide) (by decide),
    fun k hk => ⟨plain_above 1 _ _ hp (by omega) (by omega), by omega⟩⟩

/-- A stream whose window maps, and ones that are too large or not mapped. -/
theorem wit_stream_fits : let s := withStream
    let fits := fun a : Acs => decide (4 ≤ a.log2n.toNat) && decide (a.log2n.toNat ≤ 24) && (match s.asidOf 0 with
      | some x => ((s.ctx x).translate a.base.toNat (64 + 16 * 2 ^ a.log2n.toNat) false true).isSome
      | none => false)
    (s.core 0).acct.acs.en = false ∧ fits (s.core 0).acct.acs = true ∧ fits { base := 0x2000, log2n := 3 } = false ∧
      fits { base := 0x2000, log2n := 12 } = false ∧ s.streamIa 0 0x2000 8 = some 0x4002000 ∧
      s.streamIa 0 (0x2000 + 16) 8 = some (0x4002000 + 16) := by decide +kernel

/-- Sizes of a charge stream at the ends of their range and beyond them, and a stream that is on, with and without an error. -/
theorem wit_stream : State.reset.me.acct.acs.en = false ∧ (3#5).toNat < 4 ∧ 24 < (25#5).toNat ∧
    (∀ e ∈ [true, false], let s := withCore fun c => { c with acct := { c.acct with acs := { c.acct.acs with en := true, err := e } } }
      (s.core 0).acct.acs.en = true ∧ (s.core 0).acct.acs.err = e) := by decide +kernel

theorem wit_point_lower : let s := withRod 63 fun o => { o with clk := { o.clk with point := 7 } }
    s.changeDue 63 = true ∧ (s.rod 63).clk.change = none ∧ s.target 63 < (s.rod 63).clk.point := by decide +kernel

theorem wit_point_raise : let s := withRod 0 fun o => { o with clk := { o.clk with point := 0 } }
    s.changeDue 0 = true ∧ (s.rod 0).clk.change = none ∧ (s.rod 0).clk.point < s.target 0 := by decide +kernel

theorem wit_ramp_falls : ∀ p ∈ [(4, true, false), (5, false, false), (6, false, true)],
    let s := withRod 0 fun o => { o with clk := { o.clk with point := p.1, change := some ⟨false, 7, 0, 100⟩ } }
    s.changeDue 0 = true ∧ (s.rod 0).clk.change = some ⟨false, 7, 0, 100⟩ ∧ decide (p.1 < s.target 0) = p.2.1 ∧
      decide (s.target 0 < p.1) = p.2.2 := by decide +kernel

theorem wit_ramp_ends : ∀ rl ∈ [true, false], let s := withRod 0 (fun o => { o with clk := { o.clk with change := some ⟨rl, 6, 0, 56⟩ } }) 56
    (s.rod 0).clk.change = some ⟨rl, 6, 0, 56⟩ ∧ 56 ≤ s.tick := by decide +kernel

/-- A ramp that ends in SAVE with time for its relock. -/
theorem wit_ramp_ends_save : let s := withRod 0 (fun o => { o with pm := { o.pm with state := .save, till := 113 }, clk := { o.clk with change := some ⟨false, 6, 0, 56⟩ } }) 56
    (s.rod 0).clk.change = some ⟨false, 6, 0, 56⟩ ∧ 56 ≤ s.tick ∧ (s.rod 0).pm.state = .save ∧ s.tick + 56 < (s.rod 0).pm.till ∧
      (State.reset.rod 0).pm.state = .on := by decide +kernel

theorem wit_permits : let s := withPanel 15 (fun p => { p with d := 28000, f := 28000, fall := some 3 }) 3
    28000 ≤ (s.panel 15).d ∧ 28000 ≤ (s.panel 15).f ∧ (s.panel 15).fall = some 3 ∧ 3 ≤ s.tick := by decide +kernel

/-- A kernel on rod 0 one of whose cores asks for point 7. -/
def wantsBoost (f : Panel → Panel := id) : State :=
  ((atNop.modCore 0 fun c => { c with arch := { c.arch with opReq := 7 } }).modPanel 0 f)

theorem wit_pool_claim : (wantsBoost).wants7 0 = true ∧ ((wantsBoost).panel 0).pool = false ∧ ((wantsBoost).panel 0).claim = none ∧
    (wantsBoost).poolHeld 0 < 2 ∧ ∀ q ∈ panelsOf 0, ((wantsBoost).panel q).claim = none := by decide +kernel

theorem wit_pool_full : let s := ((wantsBoost).modPanel 6 fun p => { p with pool := true }).modPanel 7 fun p => { p with pool := true }
    s.wants7 0 = true ∧ (s.panel 0).pool = false ∧ (s.panel 0).claim = none ∧ 2 ≤ s.poolHeld 0 := by decide +kernel

theorem wit_pool_withdraw : State.reset.wants7 15 = false := by decide +kernel

theorem wit_pool_grant : let s := withPanel 15 fun p => { p with claim := some 0 }
    s.poolHeld 1 < 2 ∧ ∃ q ∈ panelsOf 1, (s.panel q).claim ≠ none := by decide +kernel

/-- The reset state at a tick, with the power unit changed. -/
def withPower (f : Power → Power) (tick : Nat := 0) : State := { State.reset with power := f State.reset.power, now := 360 * tick }

/-- Samples that lower the ceiling, raise it, and leave it, each at the first tick it is due, and one a tick early. -/
theorem wit_ceiling : ∀ e ∈ [(30001, 7), (0, 7), (0, 6)], let s := withPower (fun p => { p with pkceil := e.2 }) 1400
    let ws := e.1 :: s.power.samples.take 999999
    1400 * (s.power.taken + 1) ≤ s.tick ∧ s.power.lastDec = none ∧ s.power.lastChg = none ∧
      decide (10 * min s.power.peakw.toNat 3000 < (ws.take 10).sum ∧ 2 < s.power.pkceil) = decide (e.1 = 30001) ∧
      decide (32 * (ws.take 10).sum ≤ 310 * min s.power.peakw.toNat 3000 ∧ 32 * ws.sum ≤ 31000000 * min s.power.avgw.toNat 2400 ∧
        s.power.pkceil < 7) = decide (e = (0, 6)) := by decide +kernel

theorem wit_ceiling_early : ¬(1400 * ((withPower id 1399).power.taken + 1) ≤ (withPower id 1399).tick) := by decide +kernel

/-- The reading at a panel's trip, 12 below it in a trip, one that does not hold, one a tick early, and 125 °C. -/
theorem wit_trip : let s := withPanel 15 id 1400
    1400 * ((s.panel 15).readings + 1) ≤ s.tick ∧ min s.power.thr.toNat 480 ≤ 380 ∧ (s.panel 15).trip = false ∧
    (s.panel 15).lastToggle = none ∧ ¬(min s.power.thr.toNat 480 ≤ 379) ∧ 500 ≤ 500 ∧
    ¬(1400 * (((withPanel 15 id 1399).panel 15).readings + 1) ≤ (withPanel 15 id 1399).tick) := by decide +kernel

theorem wit_trip_dwell : let s := withPanel 15 (fun p => { p with trip := true, temp := 368, readings := 50, lastToggle := some 0 }) 70000
    (s.panel 15).trip = true ∧ (s.panel 15).lastToggle = some (s.tick - 70000) ∧ 70000 ≤ s.tick ∧
      ¬(1400 * ((s.panel 15).readings + 1) ≤ s.tick) ∧ (s.panel 15).temp + 12 ≤ min s.power.thr.toNat 480 := by decide +kernel

theorem wit_gate_free : (State.reset.rod 63).heldBy = false ∧ (State.reset.rod 63).pm.state = .on ∧ (atNop.rod 0).heldBy = true := by decide +kernel

/-- A rod in each state of its way down, and with a wake noted. -/
theorem wit_gate_states : ∀ st ∈ [RodPower.quiesce, .save, .hold, .railDown, .clockGated, .railGated, .waking], ∀ w ∈ [none, some 1],
    let s := withRod 63 (fun o => { o with pm := { o.pm with state := st, till := 5, wake := w }, clk := { o.clk with turn := 4 } }) 5
    (s.rod 63).pm.state = st ∧ (s.rod 63).clk.turn = 4 ∧ (s.rod 63).pm.till ≤ s.tick ∧ (s.rod 63).pm.wake = w ∧ (s.rod 63).heldBy = false := by decide +kernel

theorem wit_inrush : let s := withRod 63 fun o => { o with pm := { o.pm with state := .waking, inrush := true } }
    ((rodsOfDie 1).filter fun q => (s.rod q).pm.ramping).length < 4 ∧ (∃ q ∈ rodsOfDie 1, (s.rod q).pm.inrush = true) ∧ 252 / 4 = 63 := by
  decide +kernel

theorem wit_wake_ends : let s := withRod 63 (fun o => { o with pm := { o.pm with state := .waking, till := 5, ramping := true, restoring := true } }) 5
    (s.rod 63).pm.ramping = true ∧ (s.rod 63).pm.restoring = true ∧ (s.rod 63).pm.till ≤ s.tick := by decide +kernel

/-- `n` bytes that hold some strings at their offsets, and zeros elsewhere. -/
def bytesAt (n : Nat) (fs : List (Nat × List Byte)) : List Byte :=
  (List.range n).map fun i => (fs.findSome? fun f => if f.1 ≤ i ∧ i < f.1 + f.2.length then some (f.2.getD (i - f.1) 0) else none).getD 0

/-- The placed program with launch queue 63 enabled and one command in it, which stands with other bytes, in rising order, in
`n` pages. -/
def withCmd (fs : List (Nat × List Byte)) (n : Nat := 1) : State :=
  let s := (onMap atNop).modCtx 0 fun c => { c with maxRods := 64, lasts := c.lasts.setIfInBounds 0 (BitVec.ofNat 512 (2 ^ 18)) }
  let s := withPages n s (fs.flatMap fun f => f.2.zipIdx.filterMap fun b => if b.1 = 0 then none else some (0x4000000 + f.1 + b.2, b.1))
  { s with
    host := { s.host with lqs := s.host.lqs.setIfInBounds 63 { base := 0x4000000, log2n := 4, en := true, tail := 1 } } }
/-- A field of the command in that queue. -/
def cmdField (s : State) (off n : Nat) : Nat := fieldAt ((s.readSlot 63).command 63) off n
/-- The machine once the command and its operands have been read. -/
def opened (s : State) : State :=
  let v := s.readSlot 63
  match cmdField s 0 1 with
  | 1 => v.partLines (cmdField s 0x10 8) 512 none
  | 3 => if cmdField s 0x18 8 ≤ 2 ^ 26 then v.partLines (cmdField s 0x10 8) (cmdField s 0x18 8) none else v
  | 6 => (bindReads (v.command 63) v).foldl (fun (s : State) r => s.partLines r.1 r.2 none) v
  | 7 => v.partLines (cmdField s 0x10 8) 32 none
  | _ => v
/-- The command's code and a clean header, as it stands before it is read and as it is read. -/
def cmdGood (s : State) (op flags : Nat) : Bool :=
  fieldAt (s.command 63) 0 1 == op && s.errors.retiring.isEmpty && (s.lq 63).late.isNone &&
  cmdField s 0 1 == op && cmdField s 8 8 % 16 == 0 && cmdField s 3 1 == 0 && cmdField s 1 1 % 128 &&& (127 - flags) == 0 && cmdField s 2 1 == 0

theorem wit_queue_served : (withCmd []).serves 63 = true := by decide +kernel

/-- A doorbell that covers a whole queue, and one that covers more. -/
theorem wit_doorbell : (16#32 - ((withCmd []).lq 63).tail).toNat ≤ 2 ^ ((withCmd []).lq 63).log2n ∧
    2 ^ ((withCmd []).lq 63).log2n < (17#32 - ((withCmd []).lq 63).head).toNat := by decide +kernel

theorem wit_commands_unclean : ∀ op ∈ [0, 1, 2, 3, 4, 5, 6, 7], let s := withCmd [(0, [BitVec.ofNat 8 op, 0, 0, 1])]
    cmdField s 0 1 = op ∧ cmdField s 3 1 ≠ 0 := by decide +kernel

theorem wit_commands_misaligned : ∀ op ∈ [0, 1, 2, 3, 4, 5, 6, 7], let s := withCmd [(0, [BitVec.ofNat 8 op]), (8, [1])]
    cmdField s 0 1 = op ∧ cmdField s 3 1 = 0 ∧ cmdField s 1 1 = 0 ∧ cmdField s 2 1 = 0 ∧ cmdField s 8 8 % 16 ≠ 0 := by decide +kernel

theorem wit_commands_good : ∀ op ∈ [0, 1, 2, 3, 4, 5, 6, 7], cmdGood (withCmd [(0, [BitVec.ofNat 8 op])]) op 0 := by decide +kernel

theorem wit_command_reserved : ∀ op ∈ [8, 255], 8 ≤ cmdField (withCmd [(0, [BitVec.ofNat 8 op])]) 0 1 ∧
    cmdGood (withCmd [(0, [BitVec.ofNat 8 op])]) op 0 := by decide +kernel

/-- Lengths of an image at the ends of their range and beyond them. -/
theorem wit_image_lengths : ∀ len ∈ [63, 64, 2 ^ 26, 2 ^ 26 + 1], cmdField (withCmd [(0, [3]), (0x18, toLe 8 len)]) 0x18 8 = len := by
  decide +kernel

theorem wit_image_uncovered : let s := withCmd [(0, [3]), (0x10, toLe 8 0x4010000), (0x18, toLe 8 64)]
    (opened s).covered (cmdField s 0x10 8) (cmdField s 0x18 8) false = false := by decide +kernel

theorem wit_image_malformed : let s := withCmd [(0, [3]), (0x10, toLe 8 0x4000000), (0x18, toLe 8 64)]
    (opened s).covered (cmdField s 0x10 8) (cmdField s 0x18 8) false = true ∧
      cmdField s 0x18 8 ≠ fieldAt ((opened s).sideBytes .mem (cmdField s 0x10 8) (cmdField s 0x18 8)) 0x2C 4 + 3317 := by decide +kernel

/-- The length of an image whose body is the header: what is left of the conditions of a signed one is opaque (log 8, log 10). -/
theorem wit_image_formed : let s := withCmd [(0, [3]), (0x10, toLe 8 0x4000040), (0x18, toLe 8 (64 + 3317)), (64 + 0x2C, [64])]
    (opened s).covered (cmdField s 0x10 8) (cmdField s 0x18 8) false = true ∧
      cmdField s 0x18 8 = fieldAt ((opened s).sideBytes .mem (cmdField s 0x10 8) (cmdField s 0x18 8)) 0x2C 4 + 3317 := by decide +kernel

/-- A handle that names no image, and ones that name an image with no, and with two references. -/
theorem wit_unload : (opened (withCmd [(0, [4]), (0x10, [9])])).image? 9 = none ∧ ∀ n ∈ [0, 2],
    let s := withCmd [(0, [4])]
    let s : State := { s with work := { s.work with images := [{ loopImage [] with refs := n }] } }
    (opened s).image? (BitVec.ofNat 64 (cmdField s 0x10 8)) = some { loopImage [] with refs := n } := by decide +kernel

theorem wit_attest_covered : let s := withCmd [(0, [7]), (0x10, toLe 8 0x4000000)]
    (opened s).covered (cmdField s 0x10 8) 32 false = true := by decide +kernel

theorem wit_completion : let s := withCmd [(0, [0]), (8, toLe 8 0x4000200)]
    cmdField s 8 8 % 16 = 0 ∧ cmdField s 8 8 ≠ 0 ∧ s.dram.wf = true ∧ s.errors.planted = [] ∧ s.errors.retiring = [] ∧ s.errors.errinj.getLsbD 63 = false := by decide +kernel

theorem wit_completion_plain : (withCmd [(0, [0]), (8, toLe 8 0x4000200)]).PlainAt 0x4000200 0x4000200 16 ∧
    (withCmd [(0, [0]), (8, toLe 8 0x4000200)]).NoCount (2 ^ 26) :=
  ⟨plain_above 1 _ _ (by decide +kernel) (by decide) (by decide), noCount_above (by decide +kernel) (by decide)⟩

theorem wit_no_context : ∀ p ∈ [(2, 1), (5, 1), (6, 0)], let s := withCmd [(0, [BitVec.ofNat 8 p.1]), (4, [1])]
    cmdGood s p.1 p.2 ∧ (opened s).liveCtx (cmdField s 4 4) = none := by decide +kernel

theorem wit_context_live : ∀ p ∈ [(2, 0), (2, 1), (5, 0), (6, 0)], let s := withCmd [(0, [BitVec.ofNat 8 p.1, BitVec.ofNat 8 p.2])]
    (opened s).liveCtx (cmdField s 4 4) = some 0 ∧ cmdField s 1 1 % 2 = p.2 ∧ (opened s).kernelsOf 0 ≠ [] := by decide +kernel

theorem wit_context_idle : let s := withCmd [(0, [2])]
    let s : State := { s with work := { s.work with kernels := [] } }
    (opened s).kernelsOf 0 = [] ∧ (opened s).errors.retiring = [] := by decide +kernel

/-- A command whose completion waited for its page, and one whose slot is being retired. -/
theorem wit_commands_late : ∀ op ∈ [0, 1, 2, 3, 4, 5, 6, 7], let s := withCmd [(0, [BitVec.ofNat 8 op])]
    let late : List Byte × Nat × Nat := ([], 0, 0)
    fieldAt ((s.modLq 63 fun l => { l with late := some late }).command 63) 0 1 = op ∧
      ((s.modLq 63 fun l => { l with late := some late }).lq 63).late = some late ∧
      (let u : State := { s with errors := { s.errors with retiring := [(1024, 9, 0)] } }
       u.serves 63 = true ∧ fieldAt (u.command 63) 0 1 = op ∧ u.linesRetiring (linesOf [((u.lq 63).slotIa (u.lq 63).head, 64)]) = true) := by
  decide +kernel

/-- A command that its read loses. -/
theorem wit_command_lost : let s := withCmd [(0, [3])]
    let s : State := { s with errors := { s.errors with planted := [(0x80000, true, true)] } }
    fieldAt (s.command 63) 0 1 = 3 ∧ s.errors.retiring = [] ∧ (s.lq 63).late = none ∧ cmdField s 0 1 ≠ 3 := by decide +kernel

/-- A CTX_CREATE of a context for one rod, whose save area takes up 145 pages, of the map's own, which are always mapped. -/
def createCmd : State := withCmd [(0, [1]), (0x10, toLe 8 0x4000200), (0x18, toLe 8 0x100000), (0x20, toLe 8 (4 * 2375680)), (0x28, toLe 8 0x4000040),
  (0x30, [1]), (0x38, [1])]

theorem wit_create_fields : cmdGood createCmd 1 0 = true ∧ cmdField createCmd 0x39 1 = 0 ∧ cmdField createCmd 0x3C 4 = 0 ∧
    cmdField createCmd 0x38 1 = 1 ∧ 1 * 4 * recordBytes ≤ cmdField createCmd 0x20 8 ∧ cmdField createCmd 0x28 8 % 64 = 0 ∧
    1 ≤ cmdField createCmd 0x30 8 ∧ cmdField createCmd 0x30 8 < 2 ^ 48 := by decide +kernel

theorem wit_create_ranges : (opened createCmd).covered (cmdField createCmd 0x10 8) 512 false = true ∧
    rangesOk ((List.range 16).map (rangeImage ((opened createCmd).sideBytes .mem (cmdField createCmd 0x10 8) 512))) = true := by decide +kernel

theorem wit_create_area : (opened createCmd).covered (cmdField createCmd 0x18 8) (cmdField createCmd 0x20 8) true = true ∧
    (opened createCmd).covered (cmdField createCmd 0x28 8) 256 true = true := by decide +kernel

theorem wit_create_pins : (((opened createCmd).localPages (cmdField createCmd 0x18 8) (cmdField createCmd 0x20 8)).all fun p =>
    (opened createCmd).mapWord1 p % 65536 != 65535) = true := by decide +kernel

theorem wit_create_quota : (((opened createCmd).work.ctxs.toList.filter fun c => !c.free).map (·.pqQuota)).sum + cmdField createCmd 0x3A 2 ≤ 65536 := by
  decide +kernel

theorem wit_create_free : (∃ b < 512, ((opened createCmd).ctx b).free = true) ∧ (opened createCmd).Calm :=
  ⟨⟨511, by decide, by decide +kernel⟩, by decide +kernel, by decide +kernel, by decide +kernel⟩

theorem wit_launch : let s := withCmd [(0, [5]), (0x28, [1])]
    let i := loopImage [(0, 16, 32, 2, 1)]
    let s : State := { s with work := { s.work with images := [i] } }
    let w := opened s
    cmdGood s 5 0 ∧ w.liveCtx (cmdField s 4 4) = some 0 ∧ cmdField s 0x2C 4 = 0 ∧ w.image? (BitVec.ofNat 64 (cmdField s 0x10 8)) = some i ∧
      i.minRods ≤ cmdField s 0x28 2 ∧ cmdField s 0x28 2 ≤ min (min 64 (w.ctx 0).maxRods) 64 ∧ cmdField s 0x2A 1 ≤ 2 ∧
      cmdField s 2 1 ≤ (w.ctx 0).prioMax ∧ 4 * cmdField s 0x28 2 * i.argBytes = 0 ∧ i.dataSize = 0 ∧ i.lastEntries = [] := by decide +kernel

/-- A PIPE_BIND of one stage. -/
def bindCmd : State :=
  let s := withCmd [(0, [6]), (0x10, toLe 8 512), (512, [0, 1, 0]), (512 + 8, [64]), (512 + 0x28, [0]), (512 + 0x2C, [64])]
  { s with work := { s.work with images := [loopImage [(0, 16, 32, 2, 1)]] } }

theorem wit_pipe_bind : cmdGood bindCmd 6 0 = true ∧ (opened bindCmd).liveCtx (cmdField bindCmd 4 4) = some 0 ∧ cmdField bindCmd 0x10 8 = 512 := by
  decide +kernel

/-- The 48 bytes of its descriptor. -/
def bindDesc : List Byte := bytesAt 48 [(0, [0, 1, 0]), (8, [64]), (0x28, [0]), (0x2C, [64])]

theorem wit_pipe_header : (opened bindCmd).argIa 0 512 32 false = some 0x4000200 ∧ (opened bindCmd).argIa 0 512 48 false = some 0x4000200 ∧
    (opened bindCmd).sideBytes .mem 0x4000200 32 = bindDesc.take 32 ∧ (opened bindCmd).sideBytes .mem 0x4000200 48 = bindDesc := by decide +kernel

theorem wit_pipe_fields : let h := fieldAt bindDesc
    h 1 1 = 1 ∧ h 0 1 = 0 ∧ h 2 1 = 0 ∧ h 3 5 = 0 ∧ h 8 4 = 64 ∧ h 12 4 = 0 ∧ h 0x10 8 = 0 ∧ h 0x18 8 = 0 ∧
      Last.src (((opened bindCmd).ctx 0).lasts.getD 0 0) = true ∧ ElemTy.ofCode (BitVec.ofNat 4 (h 2 1)) = some .int8 := by decide +kernel

theorem wit_pipe_binds : let ds : List StageDesc := [⟨loopImage [(0, 16, 32, 2, 1)], .int8, 64, .int8, 64⟩]
    (opened bindCmd).stageDescs bindDesc 1 0 .int8 64 = some ds ∧
    (∃ s1, (opened bindCmd).bindLasts 0 ds [] = (0, s1) ∧ ∀ src, s1.matchStages src [] 0 [] = some []) ∧
    (opened bindCmd).work.pipes.toList.findIdx? (·.isNone) = some 0 ∧ 1 ≤ ((opened bindCmd).work.lace.toList.filter (·.isNone)).length ∧
    ∀ d ∈ ds, d.image.minRods ≤ ((opened bindCmd).ctx 0).maxRods := by
  refine ⟨by decide +kernel, ?_, by decide +kernel, by decide +kernel, by decide +kernel⟩
  have he : (loopImage [(0, 16, 32, 2, 1)]).lastEntries = [] := by decide +kernel
  refine ⟨(opened bindCmd).modCtx 0 fun c => { c with lasts := c.lasts }, ?_, fun _ => rfl⟩
  simp [State.bindLasts, State.writeLasts, State.lastsBusy, State.placeLasts, he]

/-- A KLAUNCH that is to be answered from tick `till` on, of a command that stands in memory. -/
def asking (va till : Nat) : KLaunchWait := { slot := 0, va := BitVec.ofNat 64 va, till := till, last := 28000 }
/-- The placed program at it. -/
def withKlaunch (va : Nat) (till : Nat := 0) : State :=
  let s := mapped fun c => { c with seq := { c.seq with klaunch := [asking va till] } }
  { s with dram := s.dram.writes 0x4000040 [5] }
/-- What its read meets. -/
def klaunchMeets (s : State) : State := (s.pump 0).force 0 (s.core 0).uid

theorem wit_klaunch_due : ∀ va ∈ [64, 65], let s := withKlaunch va
    (s.core 0).seq.klaunch.find? (fun k => k.result.isNone) = some (asking va 0) ∧ (klaunchMeets s).tick = 0 ∧
      (klaunchMeets s).klaunchWaits 0 (asking va 0) = false ∧ (klaunchMeets s).ringTurn 0 (s.core 0).uid = true := by decide +kernel

theorem wit_klaunch_not_due : ((withKlaunch 64 1).core 0).seq.klaunch.find? (fun k => k.result.isNone) = some (asking 64 1) ∧
    (klaunchMeets (withKlaunch 64 1)).tick < 1 := by decide +kernel

theorem wit_klaunch_read : let u := (klaunchMeets (withKlaunch 64)).seeFence 0 ((withKlaunch 64).core 0).uid
    let l : Loc := .dram 0x4000040 0x4000040 false
    let y := u.partLines 0x4000040 64 none
    let cmd := y.locBytes l 64
    u.resolve 0 64 64 true false true = some l ∧ y.locPoisoned l = false ∧ fieldAt cmd 0 1 = 5 ∧ fieldAt cmd 3 1 = 0 ∧
      fieldAt cmd 1 1 = 0 ∧ fieldAt cmd 4 4 = 0 ∧ y.asidOf 0 = some 0 ∧ (y.ctx 0).ending = false ∧ u.errors.planted = [] ∧
      u.errors.retiring = [] ∧ u.errors.errinj.getLsbD 63 = false := by decide +kernel

/-- A command that has been lost. -/
theorem wit_klaunch_lost : let s := withKlaunch 64
    let s : State := { s with errors := { s.errors with poison := [0x80000] } }
    let u := (klaunchMeets s).seeFence 0 (s.core 0).uid
    (u.partLines 0x4000040 64 none).locPoisoned (.dram 0x4000040 0x4000040 false) = true := by decide +kernel

/-! Kernels that wait and kernels whose quantum has ended. -/

/-- A waiting kernel of a priority, for some rods. -/
def waiting (num prio nrods : Nat) : Kernel := { codeKernel with num := num, prio := prio, eff := prio, st := .ready, nrods := nrods, dies := 0, rods := [] }
/-- The kernels of a state. -/
def withKernels (ks : List Kernel) (tick : Nat) : State := { atNop.modCtx 0 (fun c => { c with maxRods := 200 }) with now := 360 * tick, work := { (atNop.modCtx 0 fun c => { c with maxRods := 200 }).work with kernels := ks } }

theorem wit_aging : let s := withKernels [waiting 5 0 1] 14000000
    (s.kernel? 5).map s.agingDue = some true := by decide +kernel

theorem wit_place : let s := withKernels [waiting 5 0 1] 0
    let k := waiting 5 0 1
    s.headKernel = some k ∧ 1 ≤ (s.freeFor k).length ∧ ∀ r ∈ chooseRods (s.freeFor k) k.dies k.nrods,
      (s.rod r).clk.change = none ∧ (s.rod r).clk.point = s.target r := by decide +kernel

/-- A head whose rods a kernel of a lower priority holds. -/
theorem wit_victim : let s := (withKernels [{ waiting 5 3 64 with readyTick := 0 }, codeKernel] 0).modRod 0 fun r => { r with kernel := some 1 }
    let h := waiting 5 3 64
    s.headKernel = some h ∧ (s.freeFor h).length < 64 ∧ codeKernel ∈ s.victims h ∧ s.kernel? 1 = some codeKernel ∧
      0 ∈ codeKernel.rods ∧ (s.rod 0).reserved = none := by decide +kernel

theorem wit_place_short : let s := withKernels [waiting 5 0 64, codeKernel] 0
    s.headKernel = some (waiting 5 0 64) ∧ (s.freeFor (waiting 5 0 64)).length < 64 ∧
      (withKernels [waiting 5 0 65] 0).victims (waiting 5 0 65) = [] := by decide +kernel

theorem wit_quantum : let s := withKernels [codeKernel] 140000
    s.kernel? 1 = some codeKernel ∧ s.quantumDue codeKernel = true ∧ s.headKernel = none := by decide +kernel

theorem wit_quantum_needed : ∀ n ∈ [63, 64], let h := waiting 5 0 n
    let s := withKernels [codeKernel, h] 140000
    s.quantumDue codeKernel = true ∧ s.headKernel = some h ∧ h.eff = codeKernel.prio ∧ (n = 64 → (s.freeFor h).length < h.nrods) ∧
      (n = 63 → h.nrods ≤ (s.freeFor h).length) ∧ codeKernel.rods.any (fun r => dieAllowed h.dies (r / 32)) = true := by decide +kernel

/-- The placed program with a core's sequence changed, at a tick. -/
def atSeq (f : Seq → Seq) (tick : Nat := 0) (g : Core → Core := id) : State :=
  { atNop.modCore 0 (fun c => g { c with seq := f c.seq }) with now := 360 * tick }

theorem wit_next_trap : let s := atSeq fun q => { q with pendTraps := [(9, 3), (7, 0)] }
    s.nextTrap 0 = some (7, 0) ∧ (7 : Nat) ≠ 0 := by decide +kernel

/-- A class below the one that the next bundle raises, and one above it. -/
theorem wit_next_class : let s := fun e => (State.reset.withFetchWord 32 0x9F000000).modCore 0 fun c => { c with seq := { c.seq with pendTraps := [e] } }
    (s (1, 0)).nextClass 0 = some 2 ∧ (s (1, 0)).atBoundary 0 = true ∧ ((s (1, 0)).core 0).arch.priv = false ∧
      ((s (1, 0)).core 0).seq.pendTraps = [(1, 0)] ∧ (s (9, 3)).nextClass 0 = some 2 ∧ ((s (9, 3)).core 0).seq.pendTraps = [(9, 3)] := by
  decide +kernel

theorem wit_watchdog : let s := atNop.modCore 0 fun c => { c with unit := { c.unit with wdog := 2 ^ 48 - 1 } }
    s.watchdogDetail 0 = some 0 ∧ (s.core 0).arch.priv = false ∧ s.asidOf 0 = some 0 ∧ (s.ctx 0).wdog ≤ (s.core 0).unit.wdog ∧
      (7, 0) ∉ (s.core 0).seq.pendTraps ∧ (s.ctx 0).live = true ∧ (s.ctx 0).ending = false := by decide +kernel

theorem wit_watchdog_privileged : let s := atNop.modCore 0 fun c => { c with unit := { c.unit with wdog := 2 ^ 48 - 1 }, arch := { c.arch with priv := true } }
    s.watchdogDetail 0 = some 0 ∧ (s.core 0).arch.priv = true ∧ s.asidOf 0 = some 0 ∧ (s.ctx 0).live = true := by decide +kernel

theorem wit_debug_halt : (atNop.core 0).dbg.halted = false ∧ atNop.canHalt 0 = true ∧
    (atSeq fun q => { q with pendTraps := [(7, 0)] }).canHalt 0 = false := by decide +kernel

theorem wit_debug_halted : let s := atNop.modCore 0 fun c => { c with dbg := { c.dbg with halted := true } }
    let s := s.modKernel 1 fun k => { k with saved := [{ unit := { kernel := some 1 } }] }
    (s.core 0).dbg.halted = true ∧ (s.kernelOf 0).isSome = true ∧
      ((s.kernelOf 0).bind fun k => k.saved[(s.core 0).unit.idx]?).map (fun c => c.unit.kernel.isSome) = some true := by decide +kernel

/-- The program with 40 pages of memory, its save area at their beginning and its account area behind the first record. -/
def withArea (s : State) : State :=
  (onMap s 40).modCtx 0 fun c => { c with saveIa := 0x4000000, acctIa := 0x4000000 + 65536 * 38 }

theorem wit_snap : let s := withArea (atNop.modCore 0 fun c => { c with dbg := { c.dbg with halted := true } })
    (s.core 0).dbg.halted = true ∧ (s.kernelOf 0).isSome = true ∧ s.dram.wf = true ∧ s.recordIa 0 % 64 = 0 ∧ s.Calm ∧
      s.PlainAt (s.recordIa 0) 0x4000000 (s.core 0).saveBytes := by
  refine ⟨by decide +kernel, by decide +kernel, by decide +kernel, by decide +kernel, ⟨by decide +kernel, by decide +kernel, by decide +kernel⟩, ?_⟩
  rw [show State.recordIa _ 0 = 0x4000000 by decide +kernel, show Core.saveBytes _ = 2375680 by decide +kernel]
  exact plain_above 40 _ _ (by decide +kernel) (by decide) (by decide)

theorem wit_placement_kernel : let s := (inKernel [(0, 16, 32, 2, 1)]).modRod 0 fun r => { r with placeLeft := 1 }
    let l := (loopImage [(0, 16, 32, 2, 1)]).loopRec 0
    (s.rod 0).placeLeft = 1 ∧ ((s.kernel? 1).bind fun k => s.image? k.image) = some (loopImage [(0, 16, 32, 2, 1)]) ∧
      (loopImage [(0, 16, 32, 2, 1)]).persistent = false ∧ (s.core 0).isSaved = false ∧ 0 < (loopImage [(0, 16, 32, 2, 1)]).loopCnt ∧
      l.triparg = false ∧ l.trip ≠ 0 ∧ l.stages ≤ l.trip + 1 ∧ l.pro ≠ l.ker ∧ s.errors.planted = [] ∧ s.errors.retiring = [] ∧
      s.errors.errinj.getLsbD 63 = false := by decide +kernel

theorem wit_placement_end : let s := atNop.modRod 0 fun r => { r with placeLeft := 1 }
    (s.rod 0).placeLeft = 1 ∧ (s.rod 0).kernel = some 1 ∧ ((s.kernel? 1).bind fun k => s.image? k.image).map Image.persistent = some true ∧
      (∀ m ∈ coresOf 0, (s.core m).isSaved = false) ∧ ((withRod 63 fun r => { r with placeLeft := 1 }).rod 63).kernel = none := by decide +kernel

theorem wit_placement_saved : let s := (atSeq fun q => { q with pre := .saved .save }).modRod 0 fun r => { r with placeLeft := 1 }
    (s.core 0).isSaved = true ∧ (s.rod 0).placeLeft = 1 := by decide +kernel

theorem wit_point : ∀ k ∈ [PreKind.save, .transfer, .stop], let s := atSeq fun q => { q with pre := .requested k }
    s.pointDue 0 = true ∧ (s.core 0).seq.pre = .requested k := by decide +kernel

theorem wit_draining : ∀ k ∈ [PreKind.save, .transfer, .stop], let s := atSeq fun q => { q with pre := .draining k }
    s.pointDue 0 = true ∧ (s.core 0).seq.pre = .draining k := by decide +kernel

theorem wit_landed : ∀ k ∈ [PreKind.save, .transfer, .stop], let s := atSeq fun q => { q with pre := .landing k 0 }
    (s.core 0).seq.pre = .landing k 0 := by decide +kernel

theorem wit_move_rate : let s := atSeq fun q => { q with pre := .waitRate .save }
    s.pointDue 0 = true ∧ 8 ≤ (s.moveRate 0 true).1 ∧ 8 ≤ (s.moveRate 0 false).1 := by decide +kernel

/-- The core's copy engine with no rate left. -/
def noRate : State := atSeq (fun q => { q with pre := .draining .save }) 0 fun c => { c with eng := { c.eng with moveResv := [(.engine 0, 4096, 1)] } }

theorem wit_no_rate : noRate.pointDue 0 = true ∧ (noRate.moveRate 0 true).1 < 8 := by decide +kernel

theorem wit_saving : let s := atSeq (fun q => { q with pre := .saving .save 5 }) 5
    (s.core 0).seq.pre = .saving .save 5 ∧ 5 ≤ s.tick ∧
      (s.kernelOf 0).map (fun q => decide (∃ m ∈ q.cores, m ≠ 0 ∧ (s.core m).isSaved = false)) = some true := by decide +kernel

/-- A save whose record and account area lie plainly. -/
theorem wit_saving_stored : let s := withArea (atSeq (fun q => { q with pre := .saving .save 5 }) 5)
    (s.core 0).seq.pre = .saving .save 5 ∧ 5 ≤ s.tick ∧ s.errors.retiring = [] ∧ (s.core 0).flaw = none ∧ (s.core 0).acct.acs.en = false ∧
      s.recordIa 0 % 64 = 0 ∧ s.dram.wf = true ∧ s.Calm ∧ s.PlainAt (s.recordIa 0) 0x4000000 (s.core 0).saveBytes ∧
      s.acctIa (s.asidOf 0) = some (0x4000000 + 65536 * 38) ∧ s.PlainAt (0x4000000 + 65536 * 38) (0x4000000 + 65536 * 38) 0x98 ∧
      0x4000000 + (s.core 0).saveBytes ≤ 0x4000000 + 65536 * 38 := by
  refine ⟨by decide +kernel, by decide +kernel, by decide +kernel, by decide +kernel, by decide +kernel, by decide +kernel, by decide +kernel,
    ⟨by decide +kernel, by decide +kernel, by decide +kernel⟩, ?_, by decide +kernel,
    plain_above 40 _ _ (by decide +kernel) (by decide) (by decide), by decide +kernel⟩
  rw [show State.recordIa _ 0 = 0x4000000 by decide +kernel, show Core.saveBytes _ = 2375680 by decide +kernel]
  exact plain_above 40 _ _ (by decide +kernel) (by decide) (by decide)

theorem wit_saving_last : let s := atSeq (fun q => { q with pre := .saving .save 5 }) 5
    let s := [1, 2, 3].foldl (fun (s : State) n => s.modCore n fun c => { c with seq := { c.seq with pre := .saved .save } }) s
    let s := s.modKernel 1 fun k => { k with stop := some .save }
    (s.kernelOf 0).map (·.stop) = some (some .save) ∧ (s.kernelOf 0).map (·.transferDue) = some false ∧ (s.core 0).flaw ≠ some true ∧
      (s.ctx 0).ending = false ∧
      (s.kernelOf 0).map (fun q => decide (∀ m ∈ q.cores, m ≠ 0 → (s.core m).isSaved = true)) = some true := by decide +kernel

/-- The last core of a rod to be restored, and one that waits for another. -/
theorem wit_restore : ∀ w ∈ [true, false], let s := atSeq (fun q => { q with pre := .loading 5 }) 5
    let s := if w then s.modCore 3 fun c => { c with seq := { c.seq with pre := .loading 6 } } else s
    (s.core 0).seq.pre = .loading 5 ∧ 5 ≤ s.tick ∧ s.errors.poison = [] ∧ s.errors.planted = [] ∧ s.errors.retiring = [] ∧
      (∀ p < 64, (s.rod p).slice.lines = []) ∧ (s.kernelOf 0).isSome = true ∧
      ((∃ m ∈ coresOf 0, m ≠ 0 ∧ (s.core m).restoring = true ∧ (s.core m).seq.pre ≠ .restored) ↔ w = true) := by
  decide +kernel

theorem wit_load_rate : (atSeq fun q => { q with pre := .loadRate }).moveRate 0 false = (atNop).moveRate 0 false ∧
    8 ≤ (atNop.moveRate 0 false).1 := by decide +kernel

/-- Every core of the program has ended. -/
def allEnded : State := [0, 1, 2, 3].foldl (fun (s : State) n => s.modCore n fun c => { c with unit := { c.unit with kernel := some 1, ended := true } }) atNop

theorem wit_retire : (allEnded.kernel? 1).map allEnded.kernelDone = some true ∧
    (allEnded.kernel? 1).map (fun k => k.allCores.any allEnded.withdrawDue) = some false ∧
    (allEnded.kernel? 1).map (fun k => k.allCores.any allEnded.acceptedLeft) = some false ∧
    (allEnded.kernel? 1).map (fun k => k.allCores.all fun c => (allEnded.coreAt c).eng.aside.isEmpty) = some true ∧
    (allEnded.kernel? 1).map (fun k => (decide (k.asid < 512), k.st)) = some (true, .placed) := by decide +kernel

/-- An RWAIT of a second kernel's core on a ring in the rod of the one that retires. -/
theorem wit_retire_ring : let s := (allEnded.putRing 255 (some { asid := 0, slice := 0, base := 0, slotlog := 6, log2n := 1, full := [false, false] })).modCore 4 fun c =>
      { c with unit := { c.unit with kernel := some 2 }, eng := { c.eng with eng := [{ id := 5, kind := .rwait 255, kin := {} }] } }
    let s : State := { s with work := { s.work with kernels := s.work.kernels ++ [{ codeKernel with num := 2, rods := [1] }] } }
    (s.kernel? 1).map s.kernelDone = some true ∧ (s.kernel? 1).map (fun k => k.allCores.any s.acceptedLeft) = some false ∧
      (s.kernel? 1).map (fun k => k.allCores.any s.withdrawDue) = some false ∧ (s.kernel? 1).map (fun k => decide (4 ∈ k.cores)) = some false ∧
      s.fabric.rings.getD 255 none ≠ none ∧ s.asidAt 4 = some 0 ∧ (s.core 4).eng.eng = [{ id := 5, kind := .rwait 255, kin := {} }] := by
  decide +kernel

theorem wit_withdraw : let s := allEnded.modCore 0 fun c => { c with eng := { c.eng with mq := [{ id := 1, kind := .mdrain, kin := {}, issued := 0 }] } }
    (s.kernel? 1).map s.kernelDone = some true ∧ (s.kernel? 1).map (fun k => k.cores.any s.withdrawDue) = some true := by decide +kernel

theorem wit_final : let s := State.reset.modCtx 511 fun c => { c with live := true, free := false, ending := true }
    s.finalDue 511 = true := by decide +kernel

/-- The final accounts of a context whose account area lies plainly. -/
theorem wit_final_stored : let s := withPages 1 (State.reset.modCtx 511 fun c => { c with live := true, free := false, ending := true, acctIa := 0x4000000 })
    s.finalDue 511 = true ∧ s.dram.wf = true ∧ s.Calm ∧ s.PlainAt ((s.ctx 511).acctIa + 0x98) 0x4000098 8 := by
  refine ⟨by decide +kernel, by decide +kernel, ⟨by decide +kernel, by decide +kernel, by decide +kernel⟩, ?_⟩
  rw [show Ctx.acctIa _ = 0x4000000 by decide +kernel]
  exact plain_above 1 _ _ (by decide +kernel) (by decide) (by decide)

/-- A last of one dimension; one of memory stands from page 1,024 on. -/
def mkLast (ty space base ext : Nat) : Last :=
  BitVec.ofNat 512 (ty + 16 + 256 * space + base * 2 ^ 64 + (ext + 2 ^ 16 + 2 ^ 32 + 2 ^ 48) * 2 ^ 128 +
    if space = 0 then 0x4000000 * 2 ^ 384 else 0)
/-- The placed program with lasts 0, 1, ... and an operation of core 0 in its engine; its token is k1. -/
def withEng (o : EngOp) (ls : List Last := []) (tick : Nat := 0) (f : Core → Core := id) : State :=
  let s := atNop.modCore 0 fun c => f { c with
    eng := { c.eng with eng := [o] }
    arch := { c.arch with ops := [{ id := o.id, cls := .other }], toks := c.arch.toks.setIfInBounds 1 { ops := [o.id] } } }
  let s := s.modCtx 0 fun c => { c with lasts := ls.zipIdx.foldl (fun (v : Vector (BitVec 512) 64) e => v.setIfInBounds e.2 e.1) c.lasts }
  { s with now := 360 * tick }
/-- Its channel end 0, bound to its context. -/
def bindChan0 (s : State) (f : Chan → Chan := id) : State := s.modChan 0 fun c => f { c with en := true, asid := 0 }
/-- 64 bytes of data. -/
def data64 : Message := ⟨.data, .int8, 64, 0, 0, List.replicate 64 1⟩

theorem wit_chan_free : (State.reset.chan 255).en = false ∧ State.reset.ownChan 255 = false ∧ State.reset.ownChan 15 = true ∧ 255 = 16 * 15 + 15 := by
  decide +kernel

theorem wit_unbind : let s := bindChan0 (withEng { id := 5, kind := .recv 0 0, kin := {} })
    (s.chan 0).en = true ∧ s.asidAt 0 = some (s.chan 0).asid ∧ s.opChan { id := 5, kind := .recv 0 0, kin := {} } = some 0 ∧
      s.matched (s.refOf 0) 5 = false := by decide +kernel

theorem wit_grant : ∀ p ∈ [(true, [(512, 7)]), (false, [])],
    let s := bindChan0 atNop fun c => { c with reqs := [⟨512, 5, 2, 0⟩], posted := p.2 }
    s.ownChan 0 = true ∧ s.canGrant 0 = true ∧ (s.chan 0).reqs = [⟨512, 5, 2, 0⟩] ∧ (s.chan 0).direct = p.1 := by decide +kernel

theorem wit_grant_outside : let s := atNop.modChan 255 fun c => { c with reqs := [⟨512, 5, 2, 0⟩] }
    s.ownChan 255 = false ∧ (s.chan 255).reqs = [⟨512, 5, 2, 0⟩] := by decide +kernel

theorem wit_message_own : let s := bindChan0 atNop fun c => { c with wire := [⟨512, 5, data64, none, 0⟩] }
    s.ownChan 0 = true ∧ (s.chan 0).wire = [⟨512, 5, data64, none, 0⟩] ∧ 0 ≤ s.tick ∧ (s.chan 0).en = true ∧
      (s.chan 0).inWindow data64.gen = true := by decide +kernel

/-- The last generation of a window and the first beyond it. -/
theorem wit_message_outside : let s := atNop.modChan 255 fun c => { c with en := true }
    s.ownChan 255 = false ∧ (s.chan 255).en = true ∧ (s.chan 255).inWindow 127 = true ∧ (s.chan 255).inWindow 128 = false ∧
      (s.chan 255).direct = false ∧ msgFlits data64 + (s.chan 255).used ≤ 128 := by decide +kernel

/-- Another package's request that goes into a posted RECV, one that the queue has room for, and one that it has none for; and its message. -/
theorem wit_asks : ∀ e ∈ [(2, [(512, 7)], 0), (2, [], 0), (128, [], 1)],
    let s := atNop.modChan 255 fun c => { c with en := true, asks := [e.1], posted := e.2.1, granted := e.2.2 }
    s.ownChan 255 = false ∧ (s.chan 255).asks = [e.1] ∧ (s.chan 255).en = true ∧ ((s.chan 255).direct = true ↔ e.2.1 ≠ []) ∧
      (128 < e.1 + (s.chan 255).used ↔ e.2.2 = 1) := by decide +kernel

theorem wit_inbound : ∀ b ∈ [true, false], let s := atNop.modChan 255 fun c => { c with en := b, inbound := [(2, none)] }
    s.ownChan 255 = false ∧ (s.chan 255).inbound = [(msgFlits data64, none)] ∧ (s.chan 255).en = b := by decide +kernel

/-- A marker that leaves its generation open, and one that is its last. -/
theorem wit_marker : let s := fun n => atNop.modChan 255 fun c => { c with en := true, sources := n }
    ((s 1).chan 255).marksOf 0 + 1 ≤ ((s 1).chan 255).sources ∧ ((s 0).chan 255).sources < ((s 0).chan 255).marksOf 0 + 1 ∧
      ((s 0).chan 255).marksOf (0 + 1) ≤ ((s 0).chan 255).sources := by decide +kernel

theorem wit_send_refused_kin : let s := withEng { id := 5, kind := .send false false 0 0, kin := { refused := true } }
    s.engGo 0 5 = true ∧ (s.core 0).arch.tokEnded { refused := true } = true ∧ (s.core 0).arch.tokState { refused := true } = .refused := by
  decide +kernel

theorem wit_send_check : let o : EngOp := { id := 5, kind := .send false false 0 0, kin := {} }
    let s := withEng o [mkLast 0 1 0 64]
    s.eng? 0 5 = some o ∧ s.engGo 0 5 = true ∧ (s.core 0).arch.tokEnded o.kin = true ∧ (s.core 0).arch.tokState o.kin ≠ .refused ∧
      s.sendReason 0 false false (s.last 0 0) 0 = 15 ∧ (bindChan0 s).sendReason 0 false false ((bindChan0 s).last 0 0) 0 = 0 := by decide +kernel

theorem wit_send_asks : let o : EngOp := { id := 5, kind := .send false false 0 0, kin := {}, aux := 1 }
    ((withEng o [mkLast 0 1 0 64]).core 0).sendBehind 5 0 2 = false := by decide +kernel

theorem wit_send_go : let o : EngOp := { id := 5, kind := .send false false 0 0, kin := {}, aux := 2 }
    let s := bindChan0 (withEng o [mkLast 0 1 0 64])
    let s := s.modChan 0 fun c => { c with grants := [⟨s.refOf 0, 5, 2, none, 0⟩] }
    s.engGo 0 5 = true ∧ s.grantOf 0 (s.refOf 0) 5 ≠ none ∧ 8 ≤ s.rate 0 (s.sendUse 0 0 (s.last 0 0)) (s.last 0 0).elemBytes ∧
      (s.core 0).sendBehind 5 0 3 = false ∧ s.sourceWaits 0 5 (s.last 0 0) = false ∧ s.ownChan 0 = true ∧ (s.last 0 0).space = 1 ∧
      (∀ k < 4, 1 ≤ k → (s.last 0 0).ext k = 1) ∧ (s.last 0 0).width % 8 = 0 := by decide +kernel

theorem wit_sendr : let o : EngOp := { id := 5, kind := .sendr 0 0, kin := {} }
    let s := withEng o [mkLast 0 1 0 64]
    s.eng? 0 5 = some o ∧ s.engGo 0 5 = true ∧ s.sendrReason 0 (s.last 0 0) 0 ≠ 0 := by decide +kernel

theorem wit_sendr_accepted : let o : EngOp := { id := 5, kind := .sendr 0 0, kin := {} }
    let s := bindChan0 (withEng o [mkLast 6 1 0 64])
    s.eng? 0 5 = some o ∧ s.engGo 0 5 = true ∧ s.sendrReason 0 (s.last 0 0) 0 = 0 ∧ s.sourceWaits 0 5 (s.last 0 0) = false ∧
      s.opHole 0 o = none ∧ (s.last 0 0).space = 1 ∧ (∀ k < 4, 1 ≤ k → (s.last 0 0).ext k = 1) ∧ (s.last 0 0).width = 32 := by decide +kernel

theorem wit_send_complete : let o : EngOp := { id := 5, kind := .send false false 0 0, kin := {}, accepted := true, aux := 3 }
    let s := withEng o [mkLast 0 1 0 64] 3
    o.sendChan = some 0 ∧ o.aux + o.late ≤ s.tick ∧ s.opHole 0 o = none ∧ (s.chan 0).wire = [] := by decide +kernel

theorem wit_recv_post : let o : EngOp := { id := 5, kind := .recv 0 0, kin := {} }
    let s := withEng o [mkLast 0 1 0 64]
    s.engGo 0 5 = true ∧ (s.core 0).arch.tokState o.kin ≠ .refused ∧
      (s.core 0).eng.eng.any (fun e => decide (e.id < 5) && e.recvChan == some 0 && e.aux == 0) = false ∧ s.badFabric 0 (s.last 0 0) = false ∧
      (s.last 0 0).ro = false ∧ s.bound 0 0 = false ∧ (bindChan0 s).bound 0 0 = true := by decide +kernel

theorem wit_recv_bad : let o : EngOp := { id := 5, kind := .recv 0 0, kin := {} }
    (withEng o).badFabric 0 ((withEng o).last 0 0) = true ∧ ((withEng o [mkLast 0 1 0 64 ||| 0x10000]).last 0 0).ro = true ∧
      (withEng o [mkLast 0 1 0 64 ||| 0x10000]).badFabric 0 ((withEng o [mkLast 0 1 0 64 ||| 0x10000]).last 0 0) = false := by decide +kernel

theorem wit_recv_accept : let o : EngOp := { id := 5, kind := .recv 0 0, kin := {}, aux := 1 }
    let s := bindChan0 (withEng o [mkLast 0 1 0 64]) fun c => { c with queue := [(data64, false)] }
    let s := s.modChan 0 fun c => { c with posted := [(s.refOf 0, 5)] }
    s.engGo 0 5 = true ∧ (s.chan 0).queue = [(data64, false)] ∧ (s.chan 0).posted = [(s.refOf 0, 5)] ∧ s.recvReason 0 (s.last 0 0) data64 = 0 ∧
      8 ≤ s.rate 0 (s.recvUse 0 0 (s.last 0 0)) (s.last 0 0).elemBytes ∧ s.recvReason 0 (mkLast 0 1 0 32) data64 ≠ 0 := by decide +kernel

theorem wit_recv_complete : let o : EngOp := { id := 5, kind := .recv 0 0, kin := {}, accepted := true, aux := 3, msg := some data64 }
    let s := withEng o [mkLast 0 1 0 64] 3
    s.eng? 0 5 = some o ∧ o.aux + o.late ≤ s.tick ∧ s.opHole 0 o = none ∧ s.opWaits 0 o = false ∧
      (s.sidesOf 0 o).dstLast = mkLast 0 1 0 64 := by decide +kernel

/-- A plain payload that fills the last, and a quantised one of 32 elements into lasts of DB8 and of FP32. -/
theorem wit_recv_bytes : let q : Message := ⟨.quantised, .db8, 32, 0, 0, List.replicate 34 1⟩
    (mkLast 0 1 0 64).space = 1 ∧ (mkLast 0 1 0 64).elemBytes = data64.payload.length ∧ (State.reset.core 0).spad.wf = true ∧
      (∀ ty ∈ [7, 6], let l := mkLast ty 1 0 32
        l.space = 1 ∧ (∀ k < 4, 1 ≤ k → l.ext k = 1) ∧ l.width % 8 = 0 ∧ q.count = l.count ∧
        l.count ≤ q.payload.length) ∧ (mkLast 7 1 0 32).ty = .db8 ∧ fmtOf (mkLast 6 1 0 32).ty = some FFmt.fp32 := by decide +kernel

/-- A message granted directly to the RECV that waits for it. -/
theorem wit_direct : let o : EngOp := { id := 5, kind := .recv 0 0, kin := {}, aux := 1 }
    let s := bindChan0 (withEng o [mkLast 0 1 0 64])
    let s := s.modChan 0 fun c => { c with wire := [⟨s.refOf 0, 9, data64, some (s.refOf 0, 5), 0⟩] }
    s.ownChan 0 = true ∧ (s.chan 0).wire = [⟨s.refOf 0, 9, data64, some (s.refOf 0, 5), 0⟩] ∧ (s.chan 0).inWindow data64.gen = true ∧
      s.engAt? (s.refOf 0) 5 = some o ∧ s.recvReason (s.refOf 0) (s.lastAt (s.refOf 0) 0) data64 = 0 := by decide +kernel

/-- A target in a way that is disabled, and one beside it. -/
theorem wit_recv_lost : let o : EngOp := { id := 5, kind := .recv 0 0, kin := {} }
    let s := (withEng o [mkLast 0 2 524224 64, mkLast 0 2 524225 64]).modRod 0 fun r => { r with slice := { r.slice with ways := 2, disabled := [1] } }
    s.badFabric 0 (s.last 0 0) = false ∧ (s.last 0 1).space = 2 ∧ (s.rod (s.last 0 0).slice).slice.disabledIn (s.last 0 0).base (s.last 0 0).footprint = false ∧
      (s.rod (s.last 0 1).slice).slice.disabledIn (s.last 0 1).base (s.last 0 1).footprint = true ∧ (s.last 0 1).ro = false := by decide +kernel

/-- A contribution of package 1, and of package 2, to an instance of both. -/
def contribution (pkg : BitVec 4) : Contribution := { pkg := pkg, timeout := 7, mask := 6, gen := 3, op := 0, chan := 0, ty := .fp32, elems := [0] }
/-- An instance that package 1 has joined. -/
def joined : RedInst := { gen := 3, op := 0, ty := .fp32, n := 1, mask := 6, arrived := 2, contribs := [contribution 1], deadline := some 1 }
/-- Slot 1023 with that instance. -/
def withSlot : State :=
  let sl : RedSlot := { inst := some joined }
  { State.reset with fabric := { State.reset.fabric with slots := State.reset.fabric.slots.setIfInBounds 1023 sl } }

/-- Contributions that have reached slot 1023, the latest at tick 1, seen in tick `now`. -/
def arriving (s : State) (cs : List (Contribution × Nat)) (now : Nat) : State :=
  { s with now := 360 * now, fabric := { s.fabric with switch := cs.map fun c => .contribution 0 5 1023 c.1 c.2 } }
/-- Those of them that are served. -/
def served (s : State) : List SwitchMsg := s.fabric.switch.filter fun e => match e with
  | .contribution _ _ k _ u => k == 1023 && decide (u < s.tick)
  | _ => false

/-- One that opens an instance, one that joins it as the last, one that is refused there, and one outside its own mask. -/
theorem wit_contribution : (∀ e ∈ [(State.reset, contribution 1, 0), (withSlot, contribution 2, 0), (withSlot, contribution 1, 3), (State.reset, contribution 3, 4)],
    let s := arriving e.1 [(e.2.1, 0)] 1
    let s : State := { s with fabric := { s.fabric with slots := e.1.fabric.slots } }
    served s = [.contribution 0 5 1023 e.2.1 0] ∧ (s.redSlot 1023).cause e.2.1 = e.2.2 ∧ e.2.1.pkg ≠ s.regs.domain ∧
      (match (s.redSlot 1023).inst with
        | some i => decide (i.deadline = some 1)
        | none => decide (s.tick ≤ 0 + e.2.1.timeout)) = true) ∧
    (0 ||| (1#16 <<< (1 : Nat))) ≠ (6 : BitVec 16) ∧ (2 ||| (1#16 <<< (2 : Nat))) = (6 : BitVec 16) ∧
    (contribution 3).mask.getLsbD (contribution 3).pkg.toNat = false ∧ (contribution 1).mask.getLsbD (contribution 1).pkg.toNat = true ∧
    (State.reset.redSlot 1023).inst = none := by decide +kernel

/-- Two contributions of one tick to a free slot, the later domain number first, and of two ticks. -/
theorem wit_two_contributions : ∀ u ∈ [0, 1], let a : Contribution := { contribution 1 with timeout := 0 }
    let b : Contribution := { contribution 2 with gen := 4 }
    let s := arriving State.reset [(b, u), (a, 0)] 2
    served s = [.contribution 0 5 1023 b u, .contribution 0 5 1023 a 0] ∧ (0 < u ∨ 0 = u ∧ a.pkg < b.pkg) ∧ (s.redSlot 1023).inst = none ∧
      (s.redSlot 1023).cause a = 0 ∧ a.mask ≠ 1#16 <<< a.pkg.toNat ∧ b.gen ≠ a.gen := by decide +kernel

/-- A timeout that has passed, with no contribution there. -/
theorem wit_timeout : let s : State := { withSlot with now := 720 }
    served s = [] ∧ (s.redSlot 1023).inst = some joined ∧ joined.deadline = some 1 ∧ 1 < s.tick := by decide +kernel

/-- A contribution of this package on its way. -/
theorem wit_own_contribution : let s := { State.reset with fabric := { State.reset.fabric with switch := [.contribution 0 5 1023 (contribution 0) 0] } }
    (contribution 0).pkg = s.regs.domain ∧ 0 ≤ s.tick ∧ SwitchMsg.contribution 0 5 1023 (contribution 0) 0 ∈ s.fabric.switch ∧
      (s.fabric.switch.all fun e => match e with | .contribution a b 1023 _ u => a == 0 && b == 5 && u == 0 | _ => true) = true := by
  decide +kernel

theorem wit_answer : State.reset.phys 0 = 0 ∧ ∀ ok ∈ [true, false], let s := { State.reset with fabric := { State.reset.fabric with switch := [.answer 0 5 ok 0] } }
    0 ≤ s.tick ∧ SwitchMsg.answer 0 5 ok 0 ∈ s.fabric.switch ∧
      (s.fabric.switch.all fun e => match e with | .answer a b _ _ => a != 0 || b != 5 || e == .answer 0 5 ok 0 | _ => true) = true := by
  decide +kernel

/-- An image of one last, of index 5. -/
def lastImage (l : Last) : Image :=
  let z := fun n => List.replicate n (0 : Byte)
  { loopImage [] with bytes := z 16 ++ toLe 4 64 ++ toLe 2 1 ++ z 42 ++ toLe 8 5 ++ toLe 64 l.toNat }

/-- The last of such an image where it changes one that a kernel holds, where it does not, where its memory is not mapped, and patched. -/
theorem wit_launch_lasts : let l := mkLast 0 1 0 64
    let held := atNop.modKernel 1 fun k => { k with lasts := [5] }
    (lastImage l).lastEntries = [(5, l)] ∧ held.lastsBusy 0 [(5, l)] = true ∧ atNop.lastsBusy 0 [(5, l)] = false ∧
      (l.place (atNop.ctx 0) 64).isSome = true ∧ l.place (atNop.ctx 0) 63 = none ∧ (mkLast 0 0 0 64).place (atNop.ctx 0) 64 = none ∧
      Last.patch (l ||| 0x20000) = true ∧ Last.patch l = false ∧ l.imageOk = true ∧ (mkLast 0 1 0 0).imageOk = false := by decide +kernel

/-! Copies, probes and the memory side. -/

/-- A copy of last 0 to last 1, issued and accepted. -/
def cpyOp (form : Nat) (acc : Bool) (kin : Tok := {}) : EngOp := { id := 5, kind := .copy form 0 1, kin := kin, accepted := acc, aux := 3 }
/-- The first page above the map mapped to the frame of its own number. -/
def onPage (s : State) : State := withPages 1 s
/-- Lasts of 64 bytes of the scratchpad. -/
def spadLasts : List Last := [mkLast 0 1 0 64, mkLast 0 1 64 64]

theorem wit_copy_refused : ∀ b ∈ [true, false], let o := cpyOp 0 false { refused := b }
    let s := withEng o
    s.eng? 0 5 = some o ∧ s.engGo 0 5 = true ∧ (s.core 0).arch.tokEnded o.kin = true ∧ ((s.core 0).arch.tokState o.kin = .refused ↔ b = true) ∧
      s.storesPending 0 5 0 (s.last 0 0) = false ∧ s.readsWait 0 5 ((s.sidesOf 0 o).copySpans 0) = false ∧
      s.copyReason 0 0 (s.last 0 0) (s.last 0 1) = 2 := by decide +kernel

theorem wit_copy_accepted : let o := cpyOp 0 false
    let s := withEng o spadLasts
    let u := s.copyUse 0 0 (s.last 0 0) (s.last 0 1)
    let rho := s.rate 0 u.1 u.2
    s.eng? 0 5 = some o ∧ s.engGo 0 5 = true ∧ (s.core 0).arch.tokEnded o.kin = true ∧ (s.core 0).arch.tokState o.kin ≠ .refused ∧
      s.storesPending 0 5 0 (s.last 0 0) = false ∧ s.readsWait 0 5 ((s.sidesOf 0 o).copySpans 0) = false ∧
      s.copyReason 0 0 (s.last 0 0) (s.last 0 1) = 0 ∧ 8 ≤ rho ∧
      copyTicks u.1 u.2 rho < 2 ^ 32 := by decide +kernel

theorem wit_copy_no_rate : let s := withEng (cpyOp 0 false) spadLasts 0 fun c => { c with eng := { c.eng with moveResv := [(.engine 0, 249, 1)] } }
    let u := s.copyUse 0 0 (s.last 0 0) (s.last 0 1)
    s.engGo 0 5 = true ∧ s.copyReason 0 0 (s.last 0 0) (s.last 0 1) = 0 ∧ s.rate 0 u.1 u.2 = 7 := by decide +kernel

theorem wit_copy_complete : let o := cpyOp 0 true
    let s := withEng o spadLasts 3
    let a := (s.sidesOf 0 o).srcLast
    let b := (s.sidesOf 0 o).dstLast
    s.eng? 0 5 = some o ∧ o.aux + o.late ≤ s.tick ∧ s.opHole 0 o = none ∧ s.opWaits 0 o = false ∧
      a.ty = .int8 ∧ b.ty = .int8 ∧ a.space = 1 ∧ b.space = 1 ∧ a.ext 0 = b.ext 0 ∧
      (∀ k < 4, 1 ≤ k → a.ext k = 1 ∧ b.ext k = 1) ∧ (s.core 0).spad.wf = true := by decide +kernel

theorem wit_promise_missed : let q : TokOp := { id := 5, cls := .other, st := .promised, promise := some 2 }
    let s := withEng (cpyOp 0 true) spadLasts 3 
    let s := s.modCore 0 fun c => { c with arch := { c.arch with ops := [q] } }
    ((s.core 0).arch.ops.find? fun r => r.id == 5) = some q ∧ q.promise = some 2 ∧ 2 < s.tick ∧ q.missRaised = false ∧ q.st ≠ .refused ∧
      q.st ≠ .complete ∧ (s.core 0).unit.kernel.isSome = true := by decide +kernel

theorem wit_unmapped_page : let o := cpyOp 0 true
    let s := withEng o [mkLast 0 0 0 64, mkLast 0 1 64 64] 3
    s.asidAt 0 = some 0 ∧ s.opHole 0 o = some 0 ∧ s.eng? 0 5 = some o ∧ o.aux + o.late ≤ s.tick ∧ (s.ctx 0).live = true ∧
      (s.ctx 0).ending = false := by decide +kernel

/-- A planted error of the DRAM copy of a line that the copy reads. -/
theorem wit_engine_error : let o := cpyOp 0 true
    let s := onPage (withEng o [mkLast 0 0 0 64, mkLast 0 1 64 64])
    let s : State := { s with errors := { s.errors with planted := [(524288, true, false)] } }
    s.eng? 0 5 = some o ∧ (((s.opSpans 0 o).filter fun e => !e.2.1).flatMap spanLines).find? (fun k => s.dramLine k false == some 524288) = some 524288 ∧
      s.l2Holds 524288 = false ∧ (s.errors.planted.find? fun e => e.1 == 524288 && e.2.1 == !s.l2Holds 524288) = some (524288, !s.l2Holds 524288, false) := by
  decide +kernel

/-- The placed program with last 0 and a probe of it. -/
def withProbe (p : Probe) (l : Last) (f : Core → Core := id) : State := withEng (cpyOp 0 false) [l] 0 fun c => f { c with eng := { c.eng with probes := [p] } }
/-- A probe of last 0. -/
def probe0 (kin : Tok := {}) (write faulted accepted : Bool := false) : Probe :=
  { id := 4, write := write, d := 0, kout := 2, kin := kin, faulted := faulted, accepted := accepted }

theorem wit_probe_ready : ∀ pv ∈ [true, false], ∀ fl ∈ [true, false], ∀ rf ∈ [true, false],
    let p := { probe0 { refused := rf } false fl with begun := fl }
    let s := withProbe p (mkLast 0 1 0 64) fun c => { c with arch := { c.arch with priv := pv } }
    (s.core 0).seq.trapSeq = none ∧ (s.core 0).seq.pendTraps = [] ∧ p.begun = fl ∧
    (s.core 0).eng.probes = [p] ∧ p.accepted = false ∧ s.engGo 0 p.id = true ∧ (s.core 0).arch.tokEnded p.kin = true ∧
      p.faulted = fl ∧ ((s.core 0).arch.priv = true ↔ pv = true) ∧ ((s.core 0).arch.tokState p.kin = .refused ↔ rf = true) := by decide +kernel

theorem wit_probe_refused : ((withProbe (probe0) 0).last 0 0).rank = 0 ∧
    (let l := (withProbe (probe0 {} true) (mkLast 0 0 0 64 ||| 0x10000)).last 0 0
     l.rank ≠ 0 ∧ l.space ≠ 3 ∧ l.ro = true) ∧
    (let l := (withProbe probe0 (mkLast 0 1 0 64)).last 0 0
     l.rank ≠ 0 ∧ l.space = 1) := by decide +kernel

/-- A page whose pin count is at its end, and one whose is not. -/
theorem wit_probe_pins : ∀ n ∈ [65534, 65535], let s := onPage (withProbe probe0 (mkLast 0 0 0 64))
    let s := s.setMapWord1 1024 n
    (s.last 0 0).rank ≠ 0 ∧ (s.last 0 0).space = 0 ∧ (s.probePages 0 probe0).any (fun e => s.pinFull 0 e.1) = decide (n = 65535) := by decide +kernel

/-- A walk at a page that is missing, at its last page, and at the first of two. -/
theorem wit_probe_walk : let p := probe0 {} false false true
    let s := withProbe p (mkLast 0 0 0 64)
    let u := withPages 2 (withProbe p (mkLast 0 0 0 64 + BitVec.ofNat 512 (65500 * 2 ^ 384)))
    (s.core 0).eng.probes = [p] ∧ p.accepted = true ∧ p.nextTick ≤ s.tick ∧ (s.core 0).seq.pre = .running ∧ p.priv = false ∧
      s.probePages 0 p = [(1024, false, 0)] ∧ s.probeCause 1024 false = 1 ∧ (onPage s).probePages 0 p = [(1024, false, 0)] ∧
      (onPage s).probeCause 1024 false = 0 ∧ (u.probePages 0 p).length = 2 ∧ ((u.probePages 0 p)[0]?).map (·.1) = some 1024 ∧
      u.probeCause 1024 false = 0 := by decide +kernel

/-- Such a walk while a handler runs, with a probe of the handler behind it. -/
theorem wit_probe_in_handler : let p := probe0 {} false false true
    let h := { probe0 with id := 7, priv := true }
    let s := withProbe p (mkLast 0 0 0 64) fun c => { c with arch := { c.arch with priv := true } }
    let s := s.modCore 0 fun c => { c with eng := { c.eng with probes := [p, h] } }
    (s.core 0).eng.probes = p :: [h] ∧ p.priv = false ∧ p.accepted = true ∧ p.nextTick ≤ s.tick ∧ (s.core 0).arch.priv = true ∧
      (s.core 0).seq.pre = .running ∧ s.probePages 0 p = [(1024, false, 0)] ∧ s.probeCause 1024 false ≠ 0 := by decide +kernel

/-- A probe that is not accepted, one whose page is not reached, and a core whose results land before its pre-emption. -/
theorem wit_probe_still : (probe0).accepted = false ∧ (withProbe { probe0 {} false false true with nextTick := 1 } 0).tick < 1 ∧
    ((withProbe (probe0 {} false false true) 0 fun c => { c with seq := { c.seq with pre := .landing .save 3 } }).core 0).seq.pre = .landing .save 3 := by
  decide +kernel

/-- A probe that was issued in privileged mode, at a page that is missing. -/
theorem wit_probe_privileged : let p := { probe0 {} false false true with priv := true }
    let s := withProbe p (mkLast 0 0 0 64)
    p.accepted = true ∧ p.priv = true ∧ p.nextTick ≤ s.tick ∧ (s.core 0).seq.pre = .running ∧
      s.probePages 0 p = [(1024, false, 0)] ∧ s.probeCause 1024 false ≠ 0 ∧ s.asidOf 0 = some 0 ∧ (s.ctx 0).live = true ∧
      (s.ctx 0).ending = false := by decide +kernel

theorem wit_sync : ∀ n ∈ [0, 65535], let s := State.reset.setMapWord1 8388607 n
    s.pm.busy = false ∧ s.mapWord1 8388607 % 2 ^ 16 = n ∧ s.dram.wf = true := by decide +kernel

theorem wit_sync_end : let s : State := { State.reset with pm := { State.reset.pm with busy := true, op := 1, page := 1024 } }
    let dirty := s.modCore 255 fun c => { c with l1 := [⟨1024 * 128, 1, 1⟩] }
    s.dram.wf = true ∧ s.errors.planted = [] ∧ s.pm.busy = true ∧ s.pm.till ≤ s.tick ∧ s.pm.queue = [] ∧ s.mapPage s.pm.page = false ∧ (s.core 0).l1 = [] ∧ s.mapWord1 1024 % 2 ^ 16 = 0 ∧
      (s.setMapWord1 1024 1).mapWord1 1024 % 2 ^ 16 = 1 ∧ dirty.syncPage = 1024 ∧ (dirty.core 255).l1 = [⟨1024 * 128, 1, 1⟩] ∧
      ((⟨1024 * 128, 1, 1⟩ : L1Group).blk / 128 = 1024) := by decide +kernel

/-- The first page above the map, mapped, for a pin of package 15, with no pin and with the last but one that it can have. -/
theorem wit_peer_pin : ∀ n ∈ [0, 65534], let s := (onPage State.reset).setMapWord1 1024 n
    15 ≠ s.regs.domain.toNat ∧ 1024 < 2 ^ 23 ∧ wordV (s.wordInForce 1024) = true ∧ s.mapWord1 1024 = n ∧ s.dram.wf = true := by decide +kernel

/-- No L1 of the reset state holds a line. -/
theorem wit_sync_clean : State.reset.cores.all (fun c => c.l1.isEmpty) = true := by decide +kernel

theorem wit_resize_begins : ((withRod 63 fun o => { o with slice := { o.slice with waysNext := some 31 } }).rod 63).slice.waysNext = some 31 := by
  decide +kernel

/-- A change of ways up, from 0 to 16, and down, to 0. -/
theorem wit_resize : ∀ e ∈ [(0, 16), (16, 0)], let s := withRod 63 fun o => { o with slice := { o.slice with ways := e.1, waysNew := e.2, busy := true } }
    let sl := (s.rod 63).slice
    sl.busy = true ∧ sl.till ≤ s.tick ∧ (sl.ways ≤ sl.waysNew ∨ s.stagingInUse 63 sl.waysNew = false) ∧ sl.staging.wf = true := by decide +kernel

theorem wit_fill : let s := withCore fun c => { c with seq := { c.seq with fill := some (128, 0) } }
    (s.core 0).seq.fill = some (128, 0) ∧ 0 ≤ s.tick := by decide +kernel

theorem wit_scrub : 2 ^ 32 - 1 < 2 ^ 32 ∧ (0#64).getLsbD 12 = false ∧ State.reset.regs.elcfg.getLsbD 12 = true ∧ State.reset.errors.planted = [] ∧
    ({ State.reset with now := 360 } : State).tick % 2048 ≠ 0 ∧
    ∀ line ∈ [0, 9, 2 ^ 32 - 1], let s : State := { State.reset with
      now := 360 * 16384 * line, errors := { State.reset.errors with planted := [(line, true, false)] } }
     s.errors.planted = [(line, true, false)] ∧ s.tick % 8192 = 0 ∧ s.tick / 16384 % 2 ^ 32 = line := by decide +kernel

theorem wit_retirement : let s : State := { State.reset with errors := { State.reset.errors with retiring := [(7, 0, 9)] } }
    s.errors.retiring.find? (fun e => e.1 == 7) = some (7, 0, 9) ∧ 0 ≤ s.tick ∧ s.errors.planted = [] ∧ s.errors.held = [] := by decide +kernel

theorem wit_quarantine : ∀ u ∈ [true, false], let s := withRod 63 fun o => { o with slice := { o.slice with ways := 4 } }
    let s : State := { s with errors := { s.errors with quarantine := [(63, 3, 0, u)] } }
    s.errors.quarantine.find? (fun e => e.1 == 63 && e.2.1 == 3) = some (63, 3, 0, u) ∧ (s.rod 63).slice.staging.wf = true ∧ s.errors.planted = [] ∧ s.errors.errinj.getLsbD 63 = false := by decide +kernel

theorem wit_remote_frozen : ({ State.reset with errors := { State.reset.errors with frozen := true } } : State).errors.frozen = true := rfl

theorem wit_remote_report : atNop.errors.frozen = false ∧ State.reset.errors.frozen = false ∧ (atNop.ctx 0).live = true ∧ (atNop.ctx 0).ending = false ∧ atNop.runningCores 0 ≠ [] ∧
    (∀ c ∈ atNop.runningCores 0, c < 256 ∧ (atNop.core c).arch.priv = false) ∧
    (let s := State.reset.modCtx 511 fun c => { c with live := true, free := false }
     (s.ctx 511).live = true ∧ (s.ctx 511).ending = false ∧ s.runningCores 511 = []) ∧
    (let s := atNop.modCore 0 fun c => { c with arch := { c.arch with priv := true } }
     0 ∈ s.runningCores 0 ∧ (s.core 0).arch.priv = true) := by decide +kernel

/-! The matrix engine, barriers, stages, the gate unit and BAR0. -/

/-- A matrix operation at the head of the queue of core 0, whose lasts 0 and 1 are fit for none and for one. -/
def withMq (k : MKind) (refused : Bool := false) : State :=
  withEng (cpyOp 0 false) [0, mkLast 0 1 0 64] 0 fun c => { c with cyc := 1, eng := { c.eng with mq := [{ id := 6, kind := k, kin := { refused := refused }, issued := 0 }] } }

theorem wit_matrix_start : ∀ k ∈ [MKind.mgset 1 5, .mdrain, .mma 0 1 2 0, .mma 0 1 2 1, .mmag 1 0 2 0, .mmag 1 63 2 1], ∀ b ∈ [true, false], let s := withMq k b
    s.matrixGo 0 = true ∧ (s.core 0).eng.mq = [{ id := 6, kind := k, kin := { refused := b }, issued := 0 }] ∧ ((s.core 0).arch.tokState { refused := b } = .refused ↔ b = true) ∧
      (s.core 0).eng.mrun = [] ∧ (s.last 0 0).matrixOk false = false ∧ (s.last 0 1).matrixOk false = true ∧
      (s.last 0 0).matrixOk true = false ∧ mGlast (s.core 0).arch.ctl.mcfg = 0 := by decide +kernel

/-- A gather last that is fit, and an operation that runs as an MDRAIN comes. -/
theorem wit_matrix_gather : (mkLast 0 1 0 64 + 16).matrixOk true = true ∧
    (let s := withMq .mdrain false |>.modCore 0 fun c => { c with eng := { c.eng with mrun := [{ id := 3, kind := .mma 0 1 2 0, doneCyc := 9, cfg := 0 }] } }
     s.matrixGo 0 = true ∧ (s.core 0).eng.mrun.filter (fun r => decide (r.id < 6)) ≠ []) := by decide +kernel

theorem wit_matrix_done : ∀ b ∈ [true, false], let r : MRun := { id := 6, kind := .mma 0 1 2 0, doneCyc := 0, cfg := 0, mismatch := b }
    let s := withCore fun c => { c with eng := { c.eng with mrun := [r] } }
    (s.core 0).matrixDone = some r ∧ r.kind.isArray = true ∧ r.mismatch = b := by decide +kernel

/-- Operands that combine, for a plain operation and for a gathering one, and none that do. -/
theorem wit_matrix_types : let t : Tile := { conf := true, ty := .bf16 }
    let acc : Tile := { conf := true, ty := .fp32 }
    let s := withMq .mdrain |>.modCtx 0 fun c => { c with lasts := (c.lasts.setIfInBounds 0 (mkLast 5 1 0 64 + 16)).setIfInBounds 1 (mkLast 5 1 0 64) }
    ∀ k ∈ [MKind.mma 0 1 2 1, .mmag 1 0 2 1], let r : MRun := { id := 6, kind := k, doneCyc := 0, cfg := 0, left := t, acc := acc }
      let s := s.modCore 0 fun c => { c with eng := { c.eng with mrun := [r] } }
      (s.core 0).matrixDone = some r ∧ r.mismatch = false ∧ (s.last 0 1).ty = .bf16 ∧ (s.last 0 (mGlast r.cfg)).ty = .bf16 ∧ r.left.ty = .bf16 ∧
        r.acc.ty = .fp32 ∧ (s.last 0 1).matrixOk false = true ∧ (s.last 0 (mGlast (s.core 0).arch.ctl.mcfg)).matrixOk true = true := by decide +kernel

theorem wit_matrix_combine : MTypes .bf16 .bf16 32 .fp32 ∧ MTypes .db8 .db8 64 .fp32 ∧ MTypes .db4 .db4 128 .fp32 ∧ MTypes .int8 .uint8 64 .int32 := by
  simp [MTypes]

theorem wit_matrix_drained : let r : MRun := { id := 6, kind := .mdrain, doneCyc := 0, cfg := 0 }
    let s := withCore fun c => { c with eng := { c.eng with mrun := [r] } }
    (s.core 0).matrixDone = some r ∧ r.kind.isArray = false := by decide +kernel

theorem wit_spec_done : ∀ o ∈ [{ id := 6, doneCyc := 0, tiles := [] }, { id := 6, doneCyc := 0, tiles := [], tent := some (3, BitVec.allOnes 64) },
    { id := 6, doneCyc := 0, tiles := [], dst := some (1, Vector.replicate 64 3), tent := some (3, BitVec.allOnes 64) }, { id := 6, doneCyc := 0, tiles := [], out := some (0, 5), dst := some (1, Vector.replicate 64 3) }],
    let s := withCore fun c => { c with eng := { c.eng with spec := some o } }
    (s.core 0).eng.spec = some o ∧ o.doneCyc ≤ (s.core 0).cyc := by decide +kernel

/-- A barrier operation of a scope. -/
def barOp (sc : Scope) (refused : Bool := false) (x : Word := 0) : EngOp := { id := 5, kind := .bar sc x, kin := { refused := refused } }

theorem wit_barrier : ∀ sc ∈ [Scope.core, .rod, .panel, .domain], ∀ b ∈ [true, false], let o := barOp sc b
    let s := withEng o
    s.eng? 0 5 = some o ∧ o.accepted = false ∧ s.engGo 0 5 = true ∧ (s.core 0).arch.tokEnded o.kin = true ∧
      ((s.core 0).arch.tokState o.kin = .refused ↔ b = true) ∧ s.fenceMet 0 sc 5 = true ∧ (s.kernelOf 0).isSome = true ∧ s.fabric.bars = [] := by
  decide +kernel

theorem wit_barrier_parts : 2 ≤ ((withEng (barOp .rod)).barParts 0 .rod).length ∧ 2 ≤ ((withEng (barOp .panel)).barParts 0 .panel).length := by
  decide +kernel

theorem wit_barrier_count : let b : BarInst := ⟨.domain, 0, 0, 3, [], [(0, 0, 0)]⟩
    let s := withEng (barOp .domain)
    let s : State := { s with fabric := { s.fabric with bars := [b] } }
    (s.fabric.bars.find? fun b => b.scope == .domain && b.tag == (0 : Word).truncate 16) = some b ∧ b.count ≠ ((0 : Word).extractLsb' 16 12).toNat + 1 := by
  decide +kernel

/-- The last arrival of a rod, and of a panel. -/
theorem wit_barrier_last : ∀ sc ∈ [Scope.rod, .panel], let o := barOp sc
    let s := withEng o
    let b : BarInst := ⟨sc, 1, 0, 4, s.barParts 0 sc, [(1, 1, 9), (1, 2, 9), (1, 3, 9)]⟩
    (s.core 0).unit.kernel.getD 0 = 1 ∧ s.idxOf 0 ∈ b.parts ∧ b.full = false ∧
      ({ b with arrivals := b.arrivals ++ [(1, s.idxOf 0, 5)] } : BarInst).full = true := by decide +kernel

theorem wit_sleeps : let s := withCore fun c => { c with seq := { c.seq with sleepTo := some 0, waitw := some 0 } }
    (s.core 0).seq.sleepTo = some 0 ∧ (s.core 0).seq.waitw = some 0 ∧ 0 ≤ s.tick := by decide +kernel

theorem wit_wakes : let s := withCore fun c => { c with seq := { c.seq with waitw := some 9, wakeFlag := true } }
    (s.core 0).seq.waitw = some 9 ∧ (s.core 0).seq.wakeFlag = true := by decide +kernel

theorem wit_ticket : let s := (withRing 0).modCore 0 fun c => { c with seq := { c.seq with ticketWait := [(5, 255, 1), (6, 254, 0)] } }
    (s.core 0).seq.ticketWait = (5, 255, 1) :: [(6, 254, 0)] ∧ (s.ringOf 0 255).map Ring.hasTicket = some true ∧ s.ringOf 0 254 = none ∧
      s.ticketTurn 0 = true ∧ (s.core 0).eng.memq = [] ∧ (s.modCore 0 fun c => { c with seq := { c.seq with ticketWait := [(6, 254, 0)] } }).ticketTurn 0 = true := by
  decide +kernel

/-- The program as the stage of entry 3, with a stage operation of last 0. -/
def inStage (o : EngOp) (l : Last) (f : LaceEntry → LaceEntry := id) (tick : Nat := 0) : State :=
  let s := (withEng o [l] tick).modKernel 1 fun k => { k with stage := some 3 }
  { s with work := { s.work with lace := s.work.lace.setIfInBounds 3 (some (f stageEntry)) } }
/-- An SCONS and an SPUB of last 0. -/
def sconsOp (refused : Bool := false) : EngOp := { id := 5, kind := .scons 0, kin := { refused := refused } }
def spubOp : EngOp := { id := 5, kind := .spub 0, kin := {} }

theorem wit_scons_refused : ∀ b ∈ [true, false], let o := sconsOp b
    let s := withEng o
    s.eng? 0 5 = some o ∧ s.engGo 0 5 = true ∧ (s.core 0).arch.tokEnded o.kin = true ∧ ((s.core 0).arch.tokState o.kin = .refused ↔ b = true) ∧
      s.stageAt 0 = none := by decide +kernel

theorem wit_scons_last : let s := inStage sconsOp (mkLast 0 1 0 32)
    s.stageAt 0 = some (3, stageEntry) ∧ stageReason (s.last 0 0) 64 true ≠ 0 := by decide +kernel

/-- An eyelet whose provider is gone, and a root whose source, last 0, still holds an element. -/
theorem wit_scons_end : let s := inStage sconsOp (mkLast 0 1 0 64)
    stageReason (s.last 0 0) 64 true = 0 ∧ s.nextElement 0 3 stageEntry = .error () := ⟨by decide +kernel, rfl⟩

theorem wit_scons_takes : let l := { stageEntry with depth := 0 }
    let s := inStage sconsOp (mkLast 0 1 0 64 ||| BitVec.ofNat 512 (64 * 2 ^ 448)) fun _ => l
    s.stageAt 0 = some (3, l) ∧ stageReason (s.last 0 0) l.ibytes true = 0 ∧ (s.last 0 (BitVec.ofNat 6 l.srcLast)).space ≠ 0 ∧ (s.nextElement 0 3 l).toOption = some (some (List.replicate 64 0)) := by
  decide +kernel

theorem wit_scons_lands : let o : EngOp := { sconsOp with accepted := true, msg := some data64 }
    let s := withEng o [mkLast 0 1 0 64]
    s.eng? 0 5 = some o ∧ o.aux + o.late ≤ s.tick ∧ s.opHole 0 o = none ∧ s.opWaits 0 o = false ∧
      (s.sidesOf 0 o).dstLast.space = 1 ∧ (s.core 0).spad.wf = true := by decide +kernel

theorem wit_spub : let s := inStage spubOp (mkLast 0 1 0 64)
    s.entry? 3 = some stageEntry ∧ s.work.elems = [] ∧ s.readySpub stageEntry = some (0, spubOp) ∧ (s.core 0).arch.tokState spubOp.kin ≠ .refused ∧
      s.isFinal 3 = false ∧ stageReason (s.last 0 0) 64 false = 0 ∧ s.opHole 0 spubOp = none ∧ (s.last 0 0).space ≠ 0 ∧
      ∀ k ∈ [PreKind.stop, .transfer], ∀ p ∈ [none, some PreKind.save],
        let u := (s.modKernel 1 fun k => { k with stop := p }).modCore 0 fun c => { c with seq := { c.seq with pubStop := some (5, k) } }
        u.readySpub stageEntry = some (0, spubOp) ∧ (u.core 0).seq.pubStop = some (spubOp.id, k) ∧ (u.kernelOf 0).map (·.stop) = some p := by
  decide +kernel

/-- An SPUB from memory, with no error about. -/
theorem wit_spub_memory : let s := onPage (inStage spubOp (mkLast 0 0 0 64 ||| BitVec.ofNat 512 (64 * 2 ^ 448)))
    (s.last 0 0).space = 0 ∧ s.readySpub stageEntry = some (0, spubOp) ∧ s.opHole 0 spubOp = none ∧ s.errors.poison = [] ∧
      (∀ p < 64, (s.rod p).slice.lines = []) ∧ s.errors.planted = [] ∧ s.errors.retiring = [] ∧ s.errors.errinj.getLsbD 63 = false := by
  decide +kernel

theorem wit_published : let x : StageElem := ⟨3, 0, [], [], 255, 5, 0⟩
    let s := inStage spubOp 0
    let s : State := { s with work := { s.work with elems := [x] } }
    s.entry? 3 = some stageEntry ∧ (s.work.elems.find? fun x => x.entry == 3 && x.waiting.isEmpty && decide (x.ready ≤ s.tick)) = some x ∧ s.phys x.core < 256 ∧
      x.core < 256 := by decide +kernel

/-- A die with a load into bank 1, at its end. -/
def loading : State := State.reset.modDie 1 fun d => { d with load := some ⟨1, 0, 128, 0⟩ }

theorem wit_gatecfg : (State.reset.die 1).load = none ∧ (loading.die 1).load = some ⟨1, 0, 128, 0⟩ ∧
    ((2#64).extractLsb' 1 1 : BitVec 1) = 1 ∧ (1 : BitVec 1) ≠ (loading.die 1).gatecfg.extractLsb' 1 1 := by decide +kernel

theorem wit_gateload : (0#64).getLsbD 61 = false ∧ (0x2000000000000000#64).getLsbD 61 = true ∧ (loading.die 1).load ≠ none ∧
    (State.reset.die 1).load = none ∧ (State.reset.die 1).gatecfg.getLsbD 0 = false ∧ State.reset.iaLocal 0 = true := by decide +kernel

theorem wit_gate_end : let s := onPage loading
    (s.die 1).load = some ⟨1, 0, 128, 0⟩ ∧ 0 ≤ s.tick ∧ s.errors.planted = [] ∧ s.errors.retiring = [] ∧ (s.die 1).bank0.wf = true ∧ (s.die 1).bank1.wf = true ∧
      (∀ p ∈ pagesOf 0 128, (s.iaLoc (Nat.max 0 (p * 65536)) false).isSome = true) := by decide +kernel

theorem wit_bar0 : ((0xC1#64).extractLsb' 1 5 : BitVec 5) = 0 ∧ (0xFFF8 < 0x10000 ∧ 0x10800 ≤ 0x10800 ∧ 0x1FFF8 < 0x20000 ∧ 0x21000 ≤ 0x21000) := by decide


/-! The whole machine. -/

theorem wit_round_trip : (Instr.addi 4 0 4).isSlot = true ∧ (Instr.addi 4 0 4).WellFormed ∧
    decodeSlot 0x81020004#32 = .ok { stop := true, weight := 0, instr := .addi 4 0 4 } := ⟨by decide, (Instr.wellFormed_iff _).1 (by decide +kernel), rfl⟩

theorem wit_ready : atNop.Ready 0 0 [0x87000000#32] [.nop] where
  running := by decide +kernel
  rod := by decide +kernel
  core := by decide +kernel
  cause := by decide +kernel
  fills := by decide +kernel
  held := by decide +kernel
  legal := by decide +kernel
  words := by decide +kernel
  decoded := by rfl
  free := by decide +kernel
  operands := by decide +kernel

theorem wit_issues : atNop.Issues 0 0 [0x87000000#32] [.nop] where
  toReady := wit_ready
  klaunch := fun h => absurd h (by decide)
  grant := by decide +kernel

/-- A bundle of one KLAUNCH. -/
def atKlaunch : State := onMap (State.reset.withFetchWord 32 (word true (.klaunch 4 0)).toNat)

theorem wit_ready_klaunch : atKlaunch.Ready 0 0 [word true (.klaunch 4 0)] [.klaunch 4 0] ∧ [Instr.klaunch 4 0].any isKlaunchSlot = true ∧
    ((atKlaunch.turnStart 0).core 0).seq.klaunch = [] := by
  refine ⟨⟨?_, ?_, ?_, ?_, ?_, ?_, ?_, ?_, rfl, ?_, ?_⟩, ?_, ?_⟩ <;> decide +kernel

/-- The same bundle while its answer is awaited. -/
theorem wit_ready_klaunch_waits : let s := atKlaunch.modCore 0 fun c => { c with seq := { c.seq with klaunch := [{ slot := 0, va := 64, till := 9, last := 28000 }] } }
    s.Ready 0 0 [word true (.klaunch 4 0)] [.klaunch 4 0] ∧ [Instr.klaunch 4 0].any isKlaunchSlot = true ∧
      ((s.turnStart 0).core 0).seq.klaunch = [{ slot := 0, va := 64, till := 9, last := 28000 }] ∧
      (match (s.turnStart 0).issue 0 [word true (.klaunch 4 0)] [.klaunch 4 0] with
        | .next t => !t.answered 0
        | _ => false) = true := by
  refine ⟨⟨?_, ?_, ?_, ?_, ?_, ?_, ?_, ?_, rfl, ?_, ?_⟩, ?_, ?_, ?_⟩ <;> decide +kernel

/-- The same bundle as its command is answered. -/
theorem wit_issues_klaunch : let s := atKlaunch.modCore 0 fun c => { c with seq := { c.seq with klaunch := [{ slot := 0, va := 1, till := 0, last := 28000 }] } }
    s.Ready 0 0 [word true (.klaunch 4 0)] [.klaunch 4 0] ∧ ((s.turnStart 0).core 0).seq.klaunch ≠ [] ∧
      (match (s.turnStart 0).issue 0 [word true (.klaunch 4 0)] [.klaunch 4 0] with
        | .next t => t.answered 0
        | _ => false) = true ∧ (s.turnStart 0).passesGrant 0 (bundleWeight [word true (.klaunch 4 0)]) = false := by
  refine ⟨⟨?_, ?_, ?_, ?_, ?_, ?_, ?_, ?_, rfl, ?_, ?_⟩, ?_, ?_, ?_⟩ <;> decide +kernel

theorem wit_word_decodes : decodeInstr 0x87000000#32 = .ok .nop := rfl

/-- A package with a power sample to come from outside, running and frozen, and one with nothing to come. -/
theorem wit_outside : ∀ fz ∈ [true, false], let s : State := { State.reset with agenda := [.powerSample 100], errors := { State.reset.errors with frozen := fz } }
    s.errors.frozen = fz ∧ s.midRod = none ∧ s.outside.map (·.1) = some (.powerSample 100) := by decide +kernel

theorem wit_frozen_records : let s : State := { State.reset with errors := { State.reset.errors with frozen := true, records := [{ source := 7 }] } }
    s.errors.frozen = true ∧ s.errors.out ++ s.errors.records ≠ [] := by decide +kernel

theorem wit_frozen : let s : State := { State.reset with errors := { State.reset.errors with frozen := true } }
    s.errors.frozen = true ∧ s.errors.out ++ s.errors.records = [] ∧ s.outside = none := by decide +kernel

theorem wit_due : let s := withRod 63 fun o => { o with clk := { o.clk with wcyc := 64 } }
    s.errors.frozen = false ∧ s.midRod = none ∧ s.outside = none ∧ s.due = some (.windowEnd 63) := by decide +kernel

/-- A rod whose cycle is due, a core that waits, and neither. -/
theorem wit_idle : (withRod 63 fun o => { o with clk := { o.clk with turn := 5 } }).newRod.isSome = true := by decide +kernel

/-- The end of a tick, with rods that wait for the in-rush arbiter, and with nothing left to happen. -/
theorem wit_tick_end : ∀ w ∈ [true, false], let s : State := { State.reset with rods := State.reset.rods.map fun o =>
      { o with pm := { o.pm with state := .waking, inrush := w, till := 9 } } }
    s.errors.frozen = false ∧ s.midRod = none ∧ s.outside = none ∧ s.newRod = none ∧ s.tickEnd.isSome = w := by decide +kernel

/-- A core whose TKPROM can land. -/
theorem wit_waiter : (withCore fun c => { c with seq := { c.seq with promWait := [(1, {})] } }).waiter = some 0 := by decide +kernel

theorem wit_memories : atNop.MemOk where
  dram := by decide +kernel
  spads := by decide +kernel
  saved := by decide +kernel
  staging := by decide +kernel
  banks := by decide +kernel

/-- Is an outcome a next state? -/
def isNext : Out → Bool
  | .next _ => true
  | _ => false
theorem isNext_next {o : Out} (h : isNext o = true) : ∃ t, o = .next t := by
  cases o <;> simp [isNext] at h ⊢

theorem wit_steps : ∃ t, step atNop = .next t := isNext_next (by decide +kernel)

/-! ### What the chapters work out -/

/-- The example of "The part": core 147. -/
theorem test_core_147 : dieOf 147 = 1 ∧ rodOf 147 = 36 ∧ panelOf 147 = 9 := by decide

/-- The example below R249: o = 0x0012_3456_0000 lies in stack 7. -/
theorem test_stack : stackOf 0x001234560000 = 7 ∧ stackOff 0x001234560000 = 0x123450000 := by decide +kernel

/-- The example below R352: SALT 7 and DEPTH 1 take 0x0205 to entry 0x1EA; SALT 0 and DEPTH 0 take byte 0. -/
theorem test_pred_entry : predIdx (7 + 2 ^ 12) 0x0205 = 0x1EA ∧ predIdx 0 0xAB12 = 0x12 := by decide +kernel

/-- The example below R355: an entry of expert 2 at confidence 1 trained with expert 0. -/
theorem test_pred_train : predTake (PredSlot.train ⟨2, 1⟩ [0], PredSlot.train {} [0]) 0 = (⟨0, 1⟩, {}) := by decide +kernel

/-- The first four slots of the bundle below R131. -/
def fourSlots : List (BitVec 32) :=
  [word false (.add 0 5 1 2), word false (.addi 5 0 1), word false (.vadd 4 8 12), word false (.vsub 5 9 13)]

/-- The bundle below R131: two slots write x5 and two write t1, and slot 4 is a reserved word, or else a legal one. -/
theorem test_bundle_reasons : bundleDefect (fourSlots ++ [0x9F000000]) = some (0, 0x10) ∧
    bundleDefect (fourSlots ++ [word true .pclr]) = some (2, 0x0F) := by decide +kernel

/-- A first word with its stop bit set that the host's question numbers so (Table 7-7): HALT, and a reserved one. -/
theorem test_table_word : decodeTableWord 32 0x87040000 = some .halt ∧ decodeTableWord 32 0x9F000000 = none := by
  refine ⟨rfl, rfl⟩

/-! ### One step from reset with one word placed -/

/-- What one step with a word placed leaves, seen through `f`. -/
def after {α : Type} (w : Nat) (f : State → α) : Option α := match step (State.reset.withFetchWord 32 w) with
  | .next t => some (f t)
  | _ => none

/-- Bundle b00 of the walk of chapter 8: x4 = 4. -/
theorem test_step_addi : after 0x81020004 (fun t => (t.core 0).settledX 4) = some 4 := by decide +kernel
/-- Its last slot: HALT ends the work unit of a persistent program. -/
theorem test_step_halt : after 0x87040000 (fun t => ((t.core 0).unit.ended, (t.core 0).unit.haltPc)) = some (true, codeAt 0) := by decide +kernel
/-- NEXT is one word on (R120). -/
theorem test_step_nop : after 0x87000000 (fun t => (t.core 0).arch.pc) = some (codeAt 4) := by decide +kernel
/-- A branch that is taken (R144): BEQ x0, x0, 3 words on. -/
theorem test_step_beq : after (word true (.beq 0 0 3)).toNat (fun t => (t.core 0).arch.pc) = some (codeAt 12) := by decide +kernel
/-- TRAP 7 raises class 5 with its imm16 (Table 20-1): its entry is in progress. -/
theorem test_step_trap : after 0x87080007 (fun t => match (t.core 0).seq.trapSeq with
    | some (.entry _ c d) => some (c, d)
    | _ => none) = some (some (5, 7)) := by decide +kernel
/-- A reserved word raises ILLEGAL_BUNDLE with reason 0 and slot 0 (Table 7-6). -/
theorem test_step_illegal : after 0x9F000000 (fun t => match (t.core 0).seq.trapSeq with
    | some (.entry _ c d) => some (c, d)
    | _ => none) = some (some (2, 1)) := by decide +kernel
/-- RFE in unprivileged mode raises PRIV with slot 0 (R131). -/
theorem test_step_priv : after (word true .rfe).toNat (fun t => match (t.core 0).seq.trapSeq with
    | some (.entry _ c d) => some (c, d)
    | _ => none) = some (some (3, 1)) := by decide +kernel

/-! ### One instruction -/

/-- What `exec` leaves, seen through `f`. -/
def execAfter {α : Type} (i : Instr) (s : State) (f : State → α) : Option α := match exec i s with
  | .next t => some (f t)
  | _ => none

/-- x2 = -1 and x3 = 2 in the products and quotients of R140. -/
theorem test_mul_div : let s := withX [(2, 0xFFFFFFFFFFFFFFFF), (3, 2)]
    execAfter (.mulh 0 4 2 3) s (fun t => t.me.settledX 4) = some 0xFFFFFFFFFFFFFFFF ∧
    execAfter (.mulhu 0 4 2 3) s (fun t => t.me.settledX 4) = some 1 ∧
    execAfter (.div 0 4 2 3) s (fun t => t.me.settledX 4) = some 0 ∧
    execAfter (.rem 0 4 2 3) s (fun t => t.me.settledX 4) = some 0xFFFFFFFFFFFFFFFF := by decide +kernel

/-- A slot that writes x0 writes nothing (R122). -/
theorem test_x0 : execAfter (.addi 0 0 5) State.reset (fun t => t.me.settledX 0) = some 0 := by decide +kernel

/-- The example of VSPLAT: an FP32 tile filled with 1.0. -/
theorem test_vsplat : execAfter (.vsplat 4 9) (withX [(9, 0x3F800000)] |>.modCore 0 fun c => { c with latch := { c.latch with
      tiles := c.latch.tiles.setIfInBounds 1 { conf := true, ty := .fp32 } } })
    (fun t => ((t.me.settledRow 1 0).extractLsb' 0 64, (t.me.settledRow 1 0).extractLsb' 1984 64)) =
      some (0x3F8000003F800000, 0x3F8000003F800000) := by decide +kernel

end Sys2Proof.Tests
end

section
/-!
PROOF. Parts of the state that a change of one core keeps, and two changes of one core in a row.
-/
namespace Sys2Proof.Machine

/-- What a change of a core keeps of that core, it keeps of every core. -/
theorem State.core_modCore_keeps {α : Type} (s : State) (n m : Nat) (f : Core → Core) (view : Core → α)
    (h : view (f (s.core n)) = view (s.core n)) : view ((s.modCore n f).core m) = view (s.core m) := by
  rw [State.core_modCore]
  split
  · next e => rw [e.1, h]
  · rfl

/-- Two changes of one core are one change. -/
theorem State.modCore_modCore (s : State) (n : Nat) (f g : Core → Core) :
    (s.modCore n f).modCore n g = s.modCore n fun c => g (f c) := by
  by_cases hn : n < 256
  · simp only [State.modCore, State.setCore, State.core, getD_setIfInBounds, hn, and_self, if_true, Vector.setIfInBounds_setIfInBounds]
  · have same : ∀ (v : Vector Core 256) (c : Core), v.setIfInBounds n c = v := fun v c =>
      Vector.setIfInBounds_eq_of_size_le (by omega)
    simp only [State.modCore, State.setCore, same]

/-- A change of a core is its value at that core. -/
theorem State.modCore_congr {s : State} {n : Nat} {f g : Core → Core} (h : f (s.core n) = g (s.core n)) :
    s.modCore n f = s.modCore n g := congrArg (s.setCore n) h

/-- A core stays with its kernel where its work unit keeps the kernel's number. -/
theorem State.kernelOf_modCore (s : State) (n m : Nat) (f : Core → Core)
    (h : (f (s.core n)).unit.kernel = (s.core n).unit.kernel) : (s.modCore n f).kernelOf m = s.kernelOf m :=
  congrArg (·.bind s.kernel?) (s.core_modCore_keeps n m f (·.unit.kernel) h)

theorem State.imageOf_modCore (s : State) (n m : Nat) (f : Core → Core)
    (h : (f (s.core n)).unit.kernel = (s.core n).unit.kernel) : (s.modCore n f).imageOf m = s.imageOf m :=
  congrArg (·.bind fun k => s.image? k.image) (s.kernelOf_modCore n m f h)

theorem State.last_modCore (s : State) (n m : Nat) (f : Core → Core)
    (h : (f (s.core n)).unit.kernel = (s.core n).unit.kernel) : (s.modCore n f).last m = s.last m := by
  funext d
  simp only [State.last, State.asidOf, s.kernelOf_modCore n m f h]
  rfl

/-- The operations that a FENCE waits for are those of the engines, with the scopes that the lasts give them (R283). -/
theorem State.fenceIds_modCore (s : State) (n m : Nat) (f : Core → Core) (sc : Scope)
    (hk : (f (s.core n)).unit.kernel = (s.core n).unit.kernel) (he : (f (s.core n)).eng = (s.core n).eng) :
    (s.modCore n f).fenceIds m sc = s.fenceIds m sc := by
  have scope : (s.modCore n f).engScope m = s.engScope m := by
    funext k
    cases k <;> simp only [State.engScope, s.last_modCore n m f hk]
  simp only [State.fenceIds, scope, s.core_modCore_keeps n m f (·.eng) he]

theorem State.fenceMet_modCore (s : State) (n m : Nat) (f : Core → Core) (sc : Scope) (id : Nat)
    (hk : (f (s.core n)).unit.kernel = (s.core n).unit.kernel) (he : (f (s.core n)).eng = (s.core n).eng)
    (ht : (f (s.core n)).seq.ticketWait = (s.core n).seq.ticketWait) : (s.modCore n f).fenceMet m sc id = s.fenceMet m sc id := by
  simp only [State.fenceMet, s.fenceIds_modCore n m f sc hk he, s.core_modCore_keeps n m f (·.eng) he,
    s.core_modCore_keeps n m f (·.seq.ticketWait) ht]

/-! ### Levels of the loop buffer -/

/-- Every level closed, as a walk over the buffer leaves it. -/
theorem getD_map_close (ls : Vector LoopLvl 4) (l : Nat) :
    (ls.map fun v => { v with isOpen := false }).getD l {} = { ls.getD l {} with isOpen := false } := by
  by_cases h : l < 4 <;> simp [Vector.getD, h]

/-- `closeFrom l` closes level `l` and those inside it, and leaves the levels outside it. -/
theorem getD_closeFrom (l j : Nat) (ls : Vector LoopLvl 4) :
    (closeFrom l ls).getD j {} = if l ≤ j then { ls.getD j {} with isOpen := false } else ls.getD j {} := by
  by_cases h : j < 4 <;> simp [closeFrom, Vector.getD, h]

end Sys2Proof.Machine
end

section
/-!
PROOF. Where fetch goes that reaches an address without a taken transfer (R55, R120, R151): one equation for each case of `State.reach`.
-/
namespace Sys2Proof.Machine

/-- A core at the first bundle of a section of its loop record, every level closed (R55, R151). -/
def Core.enterSection (c : Core) (sec iters off : Nat) : Core :=
  { c with
    arch := { c.arch with pc := codeAt off, loops := closeFrom 0 c.arch.loops },
    unit := { c.unit with sec := sec, iters := iters, secCyc := 0, overrun := false },
    seq := { c.seq with redirected := true } }

/-- Every level is closed at the start of a section. -/
theorem Core.enterSection_spec (c : Core) (sec iters off : Nat) :
    (∀ l < 4, (c.enterSection sec iters off).arch.loops.getD l {} = { c.arch.loops.getD l {} with isOpen := false }) ∧
    (c.enterSection sec iters off).unit.sec = sec ∧ (c.enterSection sec iters off).unit.iters = iters ∧
    (c.enterSection sec iters off).arch.pc = codeAt off :=
  ⟨fun l _ => (getD_closeFrom 0 l c.arch.loops).trans (if_pos l.zero_le), rfl, rfl, rfl⟩

/-- Fetch that stays in its section goes to the next address, and nothing else changes. -/
theorem State.reach_of_staysInSection {s : State} {n : Nat} {next : Word} {past : Bool} (h : s.StaysInSection n next past) :
    s.reach n next past = s.modCore n fun c =>
      { c with arch := { c.arch with pc := next }, seq := { c.seq with redirected := true } } := by
  have short : ∀ off, next ≠ codeAt off ∧ (past = true → next < codeAt off) →
      (next == codeAt off || (past && decide (codeAt off ≤ next))) = false := by
    intro off ⟨hne, hlt⟩
    cases past with
    | false => simp [hne]
    | true => simpa [hne] using hlt rfl
  unfold State.reach
  rcases h with hp | hr
  · simp [hp]
  · cases hrec : s.recordOf n with
    | none => simp
    | some r =>
      obtain ⟨hker, hepi⟩ := hr r hrec
      by_cases h0 : (s.core n).unit.sec = 0
      · simp [h0, short _ (hker h0)]
      · by_cases h1 : (s.core n).unit.sec = 1
        · simp [h1, short _ (hepi h1)]
        · simp [h0, h1]

section
variable {s : State} {n : Nat} {r : LoopRec} (hp : (s.core n).arch.priv = false) (hr : s.recordOf n = some r) (past : Bool)
include hp hr

/-- At KER the prologue ends, and the first iteration of the kernel section starts. -/
theorem State.reach_ker (hs : (s.core n).unit.sec = 0) (hi : (s.core n).unit.iters ≠ 0) :
    s.reach n (codeAt r.ker) past = s.modCore n fun c => c.enterSection 1 (s.core n).unit.iters r.ker := by
  simp [State.reach, hp, hr, hs, hi, Core.enterSection]

/-- A prologue that no iteration follows ends at KER with the epilogue. -/
theorem State.reach_ker_of_no_iterations (hs : (s.core n).unit.sec = 0) (hi : (s.core n).unit.iters = 0) :
    s.reach n (codeAt r.ker) past = s.modCore n fun c =>
      let c := c.enterSection 2 0 r.epi
      { c with unit := { c.unit with started := true } } := by
  simp [State.reach, hp, hr, hs, hi, State.modCore_modCore, Core.enterSection]

/-- At EPI an iteration ends, and the kernel section starts again while iterations are left. -/
theorem State.reach_epi_again (hs : (s.core n).unit.sec = 1) (hi : (s.core n).unit.iters > 1) :
    s.reach n (codeAt r.epi) past = s.modCore n fun c => c.enterSection 1 ((s.core n).unit.iters - 1) r.ker := by
  simp [State.reach, hp, hr, hs, Nat.not_le.2 hi, Core.enterSection]

/-- The last iteration ends at EPI with the epilogue. -/
theorem State.reach_epi_last (hs : (s.core n).unit.sec = 1) (hi : (s.core n).unit.iters ≤ 1) :
    s.reach n (codeAt r.epi) past = s.modCore n fun c => c.enterSection 2 0 r.epi := by
  simp [State.reach, hp, hr, hs, hi, Core.enterSection]

end

end Sys2Proof.Machine
end

section
/-!
PROOF. HALT (R155): what it does at once, and which record of the core's image starts after it (R55).
-/
namespace Sys2Proof.Machine

/-- What HALT does at once: every loop level closes, no bundle follows by R120, and the place is kept. -/
def Core.halted (c : Core) : Core :=
  { c with
    arch := { c.arch with loops := c.arch.loops.map fun l => { l with isOpen := false } },
    seq := { c.seq with redirected := true },
    unit := { c.unit with haltPc := c.latch.pc } }

/-- The end of a halted core's work: the place of HALT stays. -/
def Core.haltEnded (c : Core) : Core :=
  { c.halted.endUnits with unit := { c.halted.endUnits.unit with haltPc := c.latch.pc } }

/-- A core that starts loop record `r`, of trip count `t`, at its prologue, or at its kernel section where it has none (R55, R57). -/
def Core.startAt (c : Core) (l : LoopRec) (r t : Nat) : Core :=
  { c with
    arch := { c.arch with pc := codeAt (if l.pro ≠ l.ker then l.pro else l.ker) },
    unit := { c.unit with
      record := r, sec := if l.pro ≠ l.ker then 0 else 1, iters := t - (l.stages - 1), secCyc := 0, overrun := false, started := true,
      starting := false, ended := false, wdog := 0 } }

theorem Core.halted_closes (c : Core) (l : Nat) :
    c.halted.arch.loops.getD l {} = { c.arch.loops.getD l {} with isOpen := false } := getD_map_close c.arch.loops l

theorem Core.endUnits_closes (c : Core) (l : Nat) :
    c.endUnits.arch.loops.getD l {} = { c.arch.loops.getD l {} with isOpen := false } := getD_map_close c.arch.loops l

theorem Core.haltEnded_closes (c : Core) (l : Nat) :
    c.haltEnded.arch.loops.getD l {} = { c.arch.loops.getD l {} with isOpen := false } := by
  simp only [Core.haltEnded, Core.endUnits_closes, Core.halted_closes]

/-- Beside the loop buffer, the work unit and the turn of fetch nothing of a core changes as HALT ends its work. -/
theorem Core.haltEnded_frame (c : Core) : c.haltEnded =
    { c with arch := c.haltEnded.arch, unit := c.haltEnded.unit, seq := { c.seq with redirected := true } } := rfl

theorem State.imageOf_halted (s : State) (n : Nat) : (s.modCore n Core.halted).imageOf n = s.imageOf n :=
  s.imageOf_modCore n n _ rfl

theorem State.unitWaits_halted (s : State) (n : Nat) : (s.modCore n Core.halted).unitWaits n = s.unitWaits n := by
  have met : ∀ sc id, (s.modCore n Core.halted).fenceMet n sc id = s.fenceMet n sc id :=
    fun sc id => s.fenceMet_modCore n n _ sc id rfl rfl rfl
  simp only [State.unitWaits, met, s.core_modCore_keeps n n Core.halted (·.eng) rfl, s.core_modCore_keeps n n Core.halted (·.seq.fence) rfl]

theorem State.tripCount_halted (s : State) (n : Nat) (i : Image) (l : LoopRec) :
    (s.modCore n Core.halted).tripCount n i l = s.tripCount n i l := by
  simp only [State.tripCount, s.core_modCore_keeps n n Core.halted (·.spad) rfl]

theorem State.record_halted (s : State) (n : Nat) : ((s.modCore n Core.halted).core n).unit.record = (s.core n).unit.record :=
  s.core_modCore_keeps n n _ (·.unit.record) rfl

/-! ### The records from one on -/

/-- No record is left: the work ends. -/
theorem State.startRecord_of_none_left {s : State} {n r : Nat} {i : Image} (fuel : Nat) (h : i.loopCnt ≤ r) :
    s.startRecord n i fuel r = s.modCore n Core.endUnits := by
  cases fuel with
  | zero => rfl
  | succ fuel => simp [State.startRecord, h]

/-- A record whose pipeline can run its trip count starts. -/
theorem State.startRecord_of_runs {s : State} {n r : Nat} {i : Image} (fuel : Nat) (hr : r < i.loopCnt)
    (hs : 0 < (i.loopRec r).stages) (ht : (i.loopRec r).stages ≤ s.tripCount n i (i.loopRec r)) :
    s.startRecord n i (fuel + 1) r = s.modCore n fun c => c.startAt (i.loopRec r) r (s.tripCount n i (i.loopRec r)) := by
  have hleft : ¬ r ≥ i.loopCnt := by omega
  have hsome : ¬ s.tripCount n i (i.loopRec r) = 0 := by omega
  have hlong : ¬ s.tripCount n i (i.loopRec r) < (i.loopRec r).stages - 1 := by omega
  have hiter : ¬ s.tripCount n i (i.loopRec r) - ((i.loopRec r).stages - 1) = 0 := by omega
  simp only [State.startRecord, if_neg hleft, if_neg hsome, if_neg hlong, if_neg hiter]
  by_cases hpro : (i.loopRec r).pro = (i.loopRec r).ker <;> simp [Core.startAt, hpro]

/-- The trip count of a record, by the bytes of its argument. -/
theorem State.tripCount_eq (s : State) (n : Nat) (i : Image) (l : LoopRec) :
    s.tripCount n i l = if l.triparg = true then
      (if 8 * l.trip + 8 ≤ i.argBytes then leNat ((s.core n).spad.bytes (8 * l.trip) 8) else 0) else l.trip := by
  have : l.trip < i.argBytes / 8 ↔ 8 * l.trip + 8 ≤ i.argBytes := by omega
  simp only [State.tripCount, this]

/-- Where no record is left, none reads an argument. -/
theorem Image.readsArg_of_none_left {i : Image} {r : Nat} (fuel : Nat) (h : i.loopCnt ≤ r) : i.readsArg fuel r = false := by
  cases fuel <;> simp [Image.readsArg, h]

/-- A record with a trip count of its own, which its pipeline can run, reads no argument, and none is passed over to one that does. -/
theorem Image.readsArg_of_runs {i : Image} {r : Nat} (fuel : Nat) (ha : (i.loopRec r).triparg = false) (hs : 0 < (i.loopRec r).stages)
    (ht : (i.loopRec r).stages ≤ (i.loopRec r).trip) : i.readsArg fuel r = false := by
  cases fuel with
  | zero => rfl
  | succ fuel =>
    have : ¬ ((i.loopRec r).trip = 0 ∨ (i.loopRec r).trip < (i.loopRec r).stages - 1) := by omega
    simp [Image.readsArg, ha, this]

theorem Image.readsArg_of_triparg {i : Image} {r : Nat} (fuel : Nat) (hr : r < i.loopCnt) (ha : (i.loopRec r).triparg = true) :
    i.readsArg (fuel + 1) r = true := by
  simp [Image.readsArg, ha, hr]

/-! ### The cases of HALT -/

/-- HALT of a core that no image holds ends its work. -/
theorem State.haltUnit_of_none {s : State} {n : Nat} (h : s.imageOf n = none) :
    s.haltUnit n = s.modCore n fun c => { c.haltEnded with unit := { c.halted.unit with ended := true } } := by
  have := (s.imageOf_halted n).trans h
  unfold Core.halted at this
  simp only [State.haltUnit, this, State.modCore_modCore]
  rfl

/-- HALT of a persistent program's core ends its work. -/
theorem State.haltUnit_of_persistent {s : State} {n : Nat} {i : Image} (h : s.imageOf n = some i) (hp : i.persistent = true) :
    s.haltUnit n = s.modCore n Core.haltEnded := by
  have := (s.imageOf_halted n).trans h
  unfold Core.halted at this
  simp only [State.haltUnit, this, hp, if_true, State.modCore_modCore]
  rfl

section
variable {s : State} {n r : Nat} {i : Image} (h : s.imageOf n = some i) (hp : i.persistent = false)
  (hrec : (s.core n).unit.record + 1 = r)
include h hp hrec

/-- HALT of a kernel's core: the start of the next record waits, or the records from it on start. -/
theorem State.haltUnit_of_kernel : s.haltUnit n =
    if s.unitWaits n && i.readsArg i.loopCnt r then
      s.modCore n fun c => { c.halted with
        arch := { c.halted.arch with pc := codeAt (i.loopRec r).pro }, unit := { c.halted.unit with starting := true } }
    else (s.modCore n Core.halted).nextUnit n i := by
  have hi := (s.imageOf_halted n).trans h
  have hw := s.unitWaits_halted n
  have hr := s.record_halted n
  unfold Core.halted at hi hw hr
  simp only [State.haltUnit, hi, hp, hw, hr, hrec, Bool.false_eq_true, if_false, State.modCore_modCore]
  rfl

/-- While a FENCE of HALT's bundle is not met, or a row of it has not moved, a record that reads its trip count waits. -/
theorem State.haltUnit_of_waits (hr : r < i.loopCnt) (ha : (i.loopRec r).triparg = true) (hw : s.unitWaits n = true) :
    s.haltUnit n = s.modCore n fun c => { c.halted with
      arch := { c.halted.arch with pc := codeAt (i.loopRec r).pro }, unit := { c.halted.unit with starting := true } } := by
  obtain ⟨fuel, hf⟩ : ∃ fuel, i.loopCnt = fuel + 1 := ⟨i.loopCnt - 1, by omega⟩
  have reads := Image.readsArg_of_triparg fuel hr ha
  rw [← hf] at reads
  rw [State.haltUnit_of_kernel h hp hrec, hw, reads, Bool.and_self, if_pos rfl]

variable (hn : n < 256)
include hn

/-- Without a wait the records from the next one on start, and the place of HALT stays. -/
theorem State.haltUnit_of_starts {f : Core → Core} (hw : (s.unitWaits n && i.readsArg i.loopCnt r) = false)
    (hf : (s.modCore n Core.halted).startRecord n i i.loopCnt r = (s.modCore n Core.halted).modCore n f) :
    s.haltUnit n = s.modCore n fun c => { f c.halted with unit := { (f c.halted).unit with haltPc := c.latch.pc } } := by
  have hr := s.record_halted n
  simp only [State.haltUnit_of_kernel h hp hrec, hw, Bool.false_eq_true, if_false, State.nextUnit, hr, hrec, hf, State.modCore_modCore]
  refine State.modCore_congr ?_
  rw [State.core_modCore_same s Core.halted hn]
  rfl

/-- HALT of a kernel's core after the last loop record ends its work. -/
theorem State.haltUnit_of_last (hr : i.loopCnt ≤ r) : s.haltUnit n = s.modCore n Core.haltEnded := by
  have nowait : (s.unitWaits n && i.readsArg i.loopCnt r) = false := by
    rw [Image.readsArg_of_none_left _ hr, Bool.and_false]
  exact State.haltUnit_of_starts h hp hrec hn nowait (State.startRecord_of_none_left _ hr)

/-- HALT of a kernel's core goes on with the next loop record, where its pipeline can run the trip count and that need not wait. -/
theorem State.haltUnit_of_runs (hr : r < i.loopCnt) (hw : (i.loopRec r).triparg = false ∨ s.unitWaits n = false)
    (hs : 0 < (i.loopRec r).stages) (ht : (i.loopRec r).stages ≤ s.tripCount n i (i.loopRec r)) :
    s.haltUnit n = s.modCore n fun c => c.halted.startAt (i.loopRec r) r (s.tripCount n i (i.loopRec r)) := by
  have nowait : (s.unitWaits n && i.readsArg i.loopCnt r) = false := by
    rcases hw with ha | hw
    · have own : s.tripCount n i (i.loopRec r) = (i.loopRec r).trip := by simp [State.tripCount, ha]
      rw [Image.readsArg_of_runs _ ha hs (Nat.le_trans ht (Nat.le_of_eq own)), Bool.and_false]
    · rw [hw, Bool.false_and]
  obtain ⟨fuel, hf⟩ : ∃ fuel, i.loopCnt = fuel + 1 := ⟨i.loopCnt - 1, by omega⟩
  have trip := s.tripCount_halted n i (i.loopRec r)
  have starts := State.startRecord_of_runs (s := s.modCore n Core.halted) fuel hr hs (Nat.le_trans ht (Nat.le_of_eq trip.symm))
  rw [← hf, trip] at starts
  exact State.haltUnit_of_starts h hp hrec hn nowait starts

end

/-- HALT answers a next state, in which the acting core alone has changed. -/
theorem exec_halt {s : State} {f : Core → Core} (hs : s.act < 256) (h : s.haltUnit s.act = s.modCore s.act f) :
    ∃ t, exec .halt s = .next t ∧ OnlyCore s.act s t ∧ t.me = f s.me :=
  ⟨s.modCore s.act f, congrArg Host.Outcome.next h, OnlyCore.modCore s s.act f, s.me_onMe f hs⟩

end Sys2Proof.Machine
end

section
/-!
PROOF. Sections of a loop record and HALT (R55, R120, R151, R155).
-/
namespace Sys2Proof.Machine

/-- Settles O6: in each of its cases `State.reach` changes its core alone in one way, and so does HALT, whose record lemmas say which
record starts. -/
theorem sectionsAndHalts : Obligations.SectionsAndHalts := by
  unfold Obligations.SectionsAndHalts
  refine ⟨fun s n next hn => ⟨fun hstay => ?_, fun r hp hr => ⟨?_, ?_, ?_, ?_⟩⟩, fun s hs himg => ?_,
    fun s i hs hi hp => ⟨fun hlast => ?_, fun hr hw hst ht => ?_, fun hr ha hw => ?_⟩⟩
  · rw [State.reach_of_staysInSection hstay, State.core_modCore_same s _ hn]
  · rintro hsec rfl hit
    rw [State.reach_ker hp hr false hsec hit, State.core_modCore_same s _ hn]
    exact Core.enterSection_spec _ 1 _ r.ker
  · rintro hsec rfl hit
    rw [State.reach_ker_of_no_iterations hp hr false hsec hit, State.core_modCore_same s _ hn]
    exact Core.enterSection_spec _ 2 0 r.epi
  · rintro hsec rfl hit
    rw [State.reach_epi_again hp hr false hsec hit, State.core_modCore_same s _ hn]
    exact Core.enterSection_spec _ 1 _ r.ker
  · rintro hsec rfl hit
    rw [State.reach_epi_last hp hr false hsec hit, State.core_modCore_same s _ hn]
    exact Core.enterSection_spec _ 2 0 r.epi
  · cases hi : s.imageOf s.act with
    | none =>
      obtain ⟨t, ht, only, hme⟩ := exec_halt hs (State.haltUnit_of_none hi)
      refine ⟨t, ht, only, ?_⟩
      rw [hme]
      exact ⟨rfl, rfl, fun l _ => Core.haltEnded_closes _ l, rfl,
        congrArg (fun c : Core => { c with unit := { s.me.halted.unit with ended := true } }) s.me.haltEnded_frame⟩
    | some i =>
      obtain ⟨t, ht, only, hme⟩ := exec_halt hs (State.haltUnit_of_persistent hi (himg i hi))
      refine ⟨t, ht, only, ?_⟩
      rw [hme]
      exact ⟨rfl, rfl, fun l _ => Core.haltEnded_closes _ l, rfl, s.me.haltEnded_frame⟩
  · obtain ⟨t, ht, only, hme⟩ := exec_halt hs (State.haltUnit_of_last hi hp rfl hs hlast)
    exact ⟨t, ht, only, by rw [hme]; rfl⟩
  · have trip := s.tripCount_eq s.act i (i.loopRec (s.me.unit.record + 1))
    obtain ⟨t, ht, only, hme⟩ := exec_halt hs (State.haltUnit_of_runs hi hp rfl hs hr hw hst (Nat.le_trans ht (Nat.le_of_eq trip.symm)))
    refine ⟨t, ht, only, ?_⟩
    rw [hme]
    exact ⟨rfl, rfl, congrArg (· - ((i.loopRec (s.me.unit.record + 1)).stages - 1)) trip, rfl, rfl⟩
  · obtain ⟨t, ht, only, hme⟩ := exec_halt hs (State.haltUnit_of_waits hi hp rfl hr ha hw)
    refine ⟨t, ht, only, ?_⟩
    rw [hme]
    exact ⟨rfl, rfl, fun l _ => Core.halted_closes _ l, rfl⟩

end Sys2Proof.Machine
end
